-- ==== Sys2Proof/Word.lean ====
section
/-!
DEFINITION. The block's words (spec 00_scope.md R7, R52, 30_encoding.md R84): a byte on the transport, a host
address, a request code. Lengths, sizes and counts are naturals and their arithmetic is exact (R7).
-/

namespace Sys2Proof

/-- A byte: an unsigned 8-bit value (R7). -/
abbrev Byte := BitVec 8

/-- HOST_ADDR_BITS = 32: the address a host request carries (R6, R52). -/
abbrev Addr := BitVec 32

/-- A host request code: 4 bits (R84). -/
abbrev Code := BitVec 4

/-- 2^ADDR_BITS: the number of byte positions a frame's 24-bit address can name (R51). -/
def addrLimit : Nat := 2 ^ 24

end Sys2Proof
end

