-- ==== Sys2Proof/Config.lean ====
section
/-!
DEFINITION. What is fixed for one block: the parameters of spec 00_scope.md R6, the geometry's two base values
(40_geometry.md R100), the types that cross the block's interfaces (R246), and the free values: what the transport and
the pins answer when no answer is written down (R56), and the OPEN parameters of the instance `State.reset` stands for.
-/

namespace Sys2Proof

/-- The two variants of the block (R2, R6). -/
inductive Variant
  | blocking
  | suspending
  deriving DecidableEq, Repr, Inhabited

/-- The two independent values of a geometry (R100); everything else is computed from them (R103). -/
structure Geometry where
  pageSize : Nat
  nPages : Nat
  deriving DecidableEq, Repr

/-- A geometry as it is handed to the validator: with the capacity it may declare for itself (R100, R105). -/
structure GeometryDecl where
  geom : Geometry
  capacityDecl : Option Nat
  deriving DecidableEq, Repr

/-- The transport's own error (R6 TransportErr, D35): opaque, so a bare tag that nothing in the model looks into.
DESIGN CHOICE (assumption 3): the tags are the naturals. -/
structure TransportErr where
  tag : Nat
  deriving DecidableEq, Repr, Inhabited

/-- The pins' own error (R6 PinErr, D35), as `TransportErr`. -/
structure PinErr where
  tag : Nat
  deriving DecidableEq, Repr, Inhabited

/-- What one transaction returns (R9, R55): the bytes received, or the transport's error. -/
inductive XferResult
  | ok (received : List Byte)
  | err (e : TransportErr)
  deriving DecidableEq, Repr, Inhabited

/-- What one pin write returns (R27). -/
inductive PinResult
  | ok
  | err (e : PinErr)
  deriving DecidableEq, Repr, Inhabited

/-- What the scheduler may deliver to a suspended block (R206, R238, R239). -/
inductive SchedInput
  | resume
  | cancel
  deriving DecidableEq, Repr

/-- The two error kinds PROGRAM_BOUNDARY_ERROR chooses between (R6, D11). -/
inductive BoundaryKind
  | notAligned
  | outOfBounds
  deriving DecidableEq, Repr, Inhabited

/-- The remaining parameters of R6. VARIANT, GEOM and VERIFY_READBACK are fields of State (R21). PROGRAM_BOUNDARY_ERROR,
a function of one Bool, is held as its two values. -/
structure Params where
  /-- FILL_BYTE (D5): sent where the block only receives. -/
  fillByte : Byte
  /-- WEL_BIT (D6): the bit of SR1 that reports the write-enable latch. -/
  welBit : Fin 8
  /-- UID_LEN (D8). -/
  uidLen : Nat
  /-- PROGRAM_BOUNDARY_ERROR(true): the data are longer than a page (OPEN, D11). -/
  boundaryTooLong : BoundaryKind
  /-- PROGRAM_BOUNDARY_ERROR(false): the data fit a page but cross one (OPEN, D11). -/
  boundaryCrossing : BoundaryKind
  /-- PROGRAM_CHECKS_CAPACITY (OPEN, D12). -/
  programChecksCapacity : Bool
  /-- ERASE_CHECKS_CAPACITY (OPEN, D13). -/
  eraseChecksCapacity : Bool
  deriving DecidableEq, Repr

namespace Config

/-- BUSY_BIT (R6): bit 0 of SR1. -/
def busyBit : Nat := 0

/-- UID_DUMMY_LEN (R6). -/
def uidDummyLen : Nat := 4

/-- PAGE_SIZE in every instance (R6). -/
def pageSize : Nat := 256

/-- The answer of a transaction for which the state's transport script is exhausted: a FREE VALUE, one for each
transaction (R56: the response bytes are free inputs; assumption 1). -/
opaque freeXfer : Nat → XferResult

/-- The answer of a pin write for which the state's pin script is exhausted: a FREE VALUE (R27; assumption 1). -/
opaque freePin : Nat → PinResult

/-- VERIFY_READBACK of the instance `State.reset` stands for: OPEN (D9), so a free value (assumption 4). -/
opaque openVerifyReadback : Bool

/-- PROGRAM_BOUNDARY_ERROR of that instance: OPEN (D11; assumption 4). -/
opaque openBoundaryError : Bool → BoundaryKind

/-- PROGRAM_CHECKS_CAPACITY of that instance: OPEN (D12; assumption 4). -/
opaque openProgramChecksCapacity : Bool

/-- ERASE_CHECKS_CAPACITY of that instance: OPEN (D13; assumption 4). -/
opaque openEraseChecksCapacity : Bool

/-- The parameter values R6 fixes, with the OPEN ones left free. -/
def params : Params where
  fillByte := 0x00
  welBit := 1
  uidLen := 8
  boundaryTooLong := openBoundaryError true
  boundaryCrossing := openBoundaryError false
  programChecksCapacity := openProgramChecksCapacity
  eraseChecksCapacity := openEraseChecksCapacity

/-- GEOM_4M (R104). -/
def geom4M : Geometry := ⟨256, 16384⟩

/-- GEOM_8M (R104). -/
def geom8M : Geometry := ⟨256, 32768⟩

/-- GEOM_16M (R104). -/
def geom16M : Geometry := ⟨256, 65536⟩

end Config

end Sys2Proof
end

