-- ==== Sys2Proof/Syntax.lean ====
section
/-!
DEFINITION. The block's instructions (spec 30_encoding.md R70, R74, R84; opcode_table.json): one constructor of `Instr`
for each row of the opcode table. The thirteen `tx…` constructors are the command frames the block sends on its transport,
one transaction each; the other fourteen are the requests a host presents at the request port.
-/

namespace Sys2Proof

/-- A level a request can ask a pin to take (R27, R84). -/
inductive Level
  | low
  | high
  deriving DecidableEq, Repr

/-- The two output pins (R26). -/
inductive Pin
  | hold
  | wp
  deriving DecidableEq, Repr

/-- Erase granularities (R9 glossary, R109). -/
inductive Granularity
  | sector
  | block32K
  | block64K
  | chip
  deriving DecidableEq, Repr

/-- The thirteen operations of the binding opcode table (R124). -/
inductive Operation
  | pageProgram
  | readData
  | readStatusRegister1
  | writeEnable
  | sectorErase
  | uniqueId
  | block32Erase
  | block64Erase
  | chipErase
  | enableReset
  | powerDown
  | releasePowerDown
  | reset
  deriving DecidableEq, Repr

/-- A request as the block latches it (R21 `req`, R84). -/
inductive Request
  | capacity
  | model
  | read (a : Addr) (n : Nat)
  | program (a : Addr) (d : List Byte)
  | erase (g : Granularity) (a : Addr)
  | uniqueId
  | powerDown
  | releasePowerDown
  | reset
  | setHold (l : Level)
  | setWp (l : Level)
  deriving DecidableEq, Repr

/-- One constructor per row of opcode_table.json. -/
inductive Instr
  /-- PageProgram, 0x02, ADDR_WDATA (R125): the address and the data bytes. -/
  | txPageProgram (a : Addr) (d : List Byte)
  /-- ReadData, 0x03, ADDR_RDATA (R126): the address and the number of bytes to receive. -/
  | txReadData (a : Addr) (n : Nat)
  /-- ReadStatusRegister1, 0x05, STATUS (R127). -/
  | txReadStatusRegister1
  /-- WriteEnable, 0x06, BARE (R128). -/
  | txWriteEnable
  /-- SectorErase, 0x20, ADDR (R129). -/
  | txSectorErase (a : Addr)
  /-- UniqueId, 0x4B, UID (R130). -/
  | txUniqueId
  /-- Block32Erase, 0x52, ADDR (R131). -/
  | txBlock32Erase (a : Addr)
  /-- Block64Erase, 0xD8, ADDR (R132). -/
  | txBlock64Erase (a : Addr)
  /-- ChipErase, 0xC7, BARE (R133). -/
  | txChipErase
  /-- EnableReset, 0x66, BARE (R134). -/
  | txEnableReset
  /-- PowerDown, 0xB9, BARE (R135). -/
  | txPowerDown
  /-- ReleasePowerDown, 0xAB, BARE (R136). -/
  | txReleasePowerDown
  /-- Reset, 0x99, BARE (R137). -/
  | txReset
  /-- capacity, code 0x0 (R168). -/
  | capacity
  /-- model, code 0x1 (R169). -/
  | model
  /-- read, code 0x2 (R170). -/
  | read (a : Addr) (n : Nat)
  /-- program, code 0x3 (R172). -/
  | program (a : Addr) (d : List Byte)
  /-- erase.sector, code 0x4 (R176). -/
  | eraseSector (a : Addr)
  /-- erase.b32, code 0x5 (R177). -/
  | eraseB32 (a : Addr)
  /-- erase.b64, code 0x6 (R178). -/
  | eraseB64 (a : Addr)
  /-- erase.chip, code 0x7 (R179): the address is carried and ignored. -/
  | eraseChip (a : Addr)
  /-- unique_id, code 0x8 (R181). -/
  | uniqueId
  /-- power_down, code 0x9 (R182). -/
  | powerDown
  /-- release_power_down, code 0xA (R183). -/
  | releasePowerDown
  /-- reset, code 0xB (R184). -/
  | reset
  /-- set_hold, code 0xC, BLOCKING only (R185). -/
  | setHold (l : Level)
  /-- set_wp, code 0xD, BLOCKING only (R186). -/
  | setWp (l : Level)
  deriving DecidableEq, Repr

/-- The record at the host request port (R84). A field the table does not give to a code carries nothing for it. -/
structure RequestWord where
  code : Code
  addr : Addr
  len : Nat
  data : List Byte
  level : Level
  deriving DecidableEq, Repr

/-- What a host puts on the request port: a request record (R84) or a line of the request text (R85). -/
inductive HostInput
  | record (w : RequestWord)
  | text (line : List Char)
  deriving DecidableEq, Repr

/-- The validator's checks, by number (R105, R106). -/
inductive GeomCheck
  | v1
  | v2
  | v3
  | v4
  deriving DecidableEq, Repr

/-- The refusals of R241: the model's verdict that a request or a configuration spells nothing. -/
inductive Refused
  /-- RefusedReservedCode: request codes 0xE and 0xF. -/
  | reservedCode
  /-- RefusedNoPins: set_hold or set_wp in the SUSPENDING variant. -/
  | noPins
  /-- RefusedSyntax: a text line that does not parse. -/
  | badText
  /-- RefusedGeometry: the first check that fails (R107). -/
  | geometry (c : GeomCheck)
  deriving DecidableEq, Repr

/-- The faults of R240: the block was driven outside its contract. -/
inductive ContractFault
  /-- A request whose frame would carry an address of 2^24 or more passed its own checks (R121). -/
  | encoderAddressRange (a : Addr)
  /-- A request was presented while the phase was not Idle (R243). -/
  | concurrentUse
  /-- A transaction returned Ok with a response of another length than the frame (R55). -/
  | transportContract
  deriving DecidableEq, Repr

end Sys2Proof
end

