-- ==== Sys2Proof/WellFormed.lean ====
section
/-!
DEFINITION. Which terms of `Instr` the formats of spec 30_encoding.md can spell. A frame's address field has 24 bits (R51,
R121) and a page-program frame carries at most PAGE_SIZE data bytes (R70). A request record can hold any address, length
and data: the checks of R170, R172 and R175 are part of its meaning, not of its form.
-/

namespace Sys2Proof

/-- The address fits a frame's 24-bit field (R121). -/
abbrev fitsFrame (a : Addr) : Prop := a.toNat < addrLimit

/-- `i` is an instruction the formats can spell. -/
def Instr.wf : Instr → Bool
  | .txPageProgram a d => decide (fitsFrame a) && decide (d.length ≤ Config.pageSize)
  | .txReadData a _ => decide (fitsFrame a)
  | .txReadStatusRegister1 => true
  | .txWriteEnable => true
  | .txSectorErase a => decide (fitsFrame a)
  | .txUniqueId => true
  | .txBlock32Erase a => decide (fitsFrame a)
  | .txBlock64Erase a => decide (fitsFrame a)
  | .txChipErase => true
  | .txEnableReset => true
  | .txPowerDown => true
  | .txReleasePowerDown => true
  | .txReset => true
  | .capacity => true
  | .model => true
  | .read _ _ => true
  | .program _ _ => true
  | .eraseSector _ => true
  | .eraseB32 _ => true
  | .eraseB64 _ => true
  | .eraseChip _ => true
  | .uniqueId => true
  | .powerDown => true
  | .releasePowerDown => true
  | .reset => true
  | .setHold _ => true
  | .setWp _ => true

end Sys2Proof
end

