-- ==== Sys2Proof/Decode.lean ====
section
/-!
DEFINITION. The decoders and, after them, the encoders (spec 30_encoding.md, 41_encoder.md R120 to R138). A word of this
block is either a command frame (bytes on the transport, R70) or a record at the request port (R84); a request may also be
a line of text (R85, R86). Every decoder is total and rejects by name.
-/

namespace Sys2Proof

/-! ### Byte and bit-field helpers (R7, R53, R72) -/

/-- The three address bytes of a frame, most significant first (R53, R72): A[23:16], A[15:8], A[7:0]. -/
def addrBytes (a : Addr) : List Byte :=
  [a.extractLsb' 16 8, a.extractLsb' 8 8, a.extractLsb' 0 8]

/-- The address three frame bytes spell (R72's inverse: hi << 16 | mid << 8 | lo), as a host address. -/
def addrOfBytes (hi mid lo : Byte) : Addr :=
  BitVec.ofNat 32 (hi.toNat * 2 ^ 16 + mid.toNat * 2 ^ 8 + lo.toNat)

/-- The `n` lowest bytes of `w`, lowest first: bits 7..0 are the first byte. -/
def bytesOfNat (n w : Nat) : List Byte :=
  (List.range n).map fun k => BitVec.ofNat 8 (w / 2 ^ (8 * k))

/-! ### The binding opcode table (R124) -/

/-- OPCODE(op) (R124). -/
def opcode : Operation → Byte
  | .pageProgram => 0x02
  | .readData => 0x03
  | .readStatusRegister1 => 0x05
  | .writeEnable => 0x06
  | .sectorErase => 0x20
  | .uniqueId => 0x4B
  | .block32Erase => 0x52
  | .block64Erase => 0xD8
  | .chipErase => 0xC7
  | .enableReset => 0x66
  | .powerDown => 0xB9
  | .releasePowerDown => 0xAB
  | .reset => 0x99

/-- The thirteen operations, in the source's order (R74). -/
def operations : List Operation :=
  [.pageProgram, .readData, .readStatusRegister1, .writeEnable, .sectorErase, .uniqueId, .block32Erase, .block64Erase,
   .chipErase, .enableReset, .powerDown, .releasePowerDown, .reset]

/-- The operation a byte 0 selects; `none` for the 243 values the table does not use (R75). -/
def operationOf (b : Byte) : Option Operation :=
  operations.find? fun op => opcode op == b

/-- The address-taking operations (R122). -/
def Operation.takesAddress : Operation → Bool
  | .pageProgram => true
  | .readData => true
  | .readStatusRegister1 => false
  | .writeEnable => false
  | .sectorErase => true
  | .uniqueId => false
  | .block32Erase => true
  | .block64Erase => true
  | .chipErase => false
  | .enableReset => false
  | .powerDown => false
  | .releasePowerDown => false
  | .reset => false

/-- `encode(op, address)` (R123): the opcode, then for an address-taking operation the address, big-endian. An address of
2^24 or more is the fault EncoderAddressRange (R121); it is never truncated. -/
def encodeOp (op : Operation) (a : Addr) : Except ContractFault (List Byte) :=
  if op.takesAddress then
    if addrLimit ≤ a.toNat then .error (.encoderAddressRange a) else .ok (opcode op :: addrBytes a)
  else .ok [opcode op]

/-- A whole frame: encode's bytes, then the data, dummy or receive phase (R70, R73). -/
def frame (op : Operation) (a : Addr) (tail : List Byte) : Except ContractFault (List Byte) :=
  match encodeOp op a with
  | .error f => .error f
  | .ok header => .ok (header ++ tail)

/-- `n` receive bytes (R8 `rep`, R56). -/
def fill (p : Params) (n : Nat) : List Byte := List.replicate n p.fillByte

/-- The bytes a UID frame sends after its opcode (R70, R181). -/
def uidTail (p : Params) : List Byte := fill p (Config.uidDummyLen + p.uidLen)

/-! ### Which instruction is which request -/

/-- The request an instruction of the request port spells (R84); `none` for a command frame. -/
def Instr.request? : Instr → Option Request
  | .txPageProgram _ _ => none
  | .txReadData _ _ => none
  | .txReadStatusRegister1 => none
  | .txWriteEnable => none
  | .txSectorErase _ => none
  | .txUniqueId => none
  | .txBlock32Erase _ => none
  | .txBlock64Erase _ => none
  | .txChipErase => none
  | .txEnableReset => none
  | .txPowerDown => none
  | .txReleasePowerDown => none
  | .txReset => none
  | .capacity => some .capacity
  | .model => some .model
  | .read a n => some (.read a n)
  | .program a d => some (.program a d)
  | .eraseSector a => some (.erase .sector a)
  | .eraseB32 a => some (.erase .block32K a)
  | .eraseB64 a => some (.erase .block64K a)
  | .eraseChip a => some (.erase .chip a)
  | .uniqueId => some .uniqueId
  | .powerDown => some .powerDown
  | .releasePowerDown => some .releasePowerDown
  | .reset => some .reset
  | .setHold l => some (.setHold l)
  | .setWp l => some (.setWp l)

/-- The request needs a pin (R185, R186, R207). -/
def Request.usesPin : Request → Bool
  | .setHold _ => true
  | .setWp _ => true
  | _ => false

/-- The destructive requests: program and every erase (R9 glossary). -/
def Request.destructive : Request → Bool
  | .program _ _ => true
  | .erase _ _ => true
  | _ => false

/-- The instruction is a request that needs a pin. -/
def Instr.usesPin (i : Instr) : Bool := i.request?.any Request.usesPin

/-! ### Decoding a command frame -/

/-- Why a byte sequence is no frame of the block. -/
inductive FrameError
  /-- No byte 0. -/
  | empty
  /-- Byte 0 is one of the 243 values outside the table (R75). -/
  | unusedOpcode (b : Byte)
  /-- The length is not the one R76 fixes for the opcode. -/
  | badLength
  /-- A page program with more than PAGE_SIZE data bytes (R70). -/
  | dataTooLong
  /-- A byte where the block only receives is not FILL_BYTE (R70). -/
  | notFill
  deriving DecidableEq, Repr

/-- A BARE frame: the opcode alone. -/
def decodeBare (i : Instr) : List Byte → Except FrameError Instr
  | [] => .ok i
  | _ :: _ => .error .badLength

/-- An ADDR frame: the opcode and three address bytes. -/
def decodeAddr (i : Addr → Instr) : List Byte → Except FrameError Instr
  | [hi, mid, lo] => .ok (i (addrOfBytes hi mid lo))
  | _ => .error .badLength

/-- An ADDR_WDATA frame: three address bytes and up to PAGE_SIZE data bytes. -/
def decodeAddrWdata (i : Addr → List Byte → Instr) : List Byte → Except FrameError Instr
  | hi :: mid :: lo :: d =>
    if d.length ≤ Config.pageSize then .ok (i (addrOfBytes hi mid lo) d) else .error .dataTooLong
  | _ => .error .badLength

/-- An ADDR_RDATA frame: three address bytes and any number of receive bytes. -/
def decodeAddrRdata (p : Params) (i : Addr → Nat → Instr) : List Byte → Except FrameError Instr
  | hi :: mid :: lo :: r =>
    if r = fill p r.length then .ok (i (addrOfBytes hi mid lo) r.length) else .error .notFill
  | _ => .error .badLength

/-- A STATUS or UID frame: exactly the bytes `tail`, all FILL_BYTE. -/
def decodeFill (tail : List Byte) (i : Instr) (rest : List Byte) : Except FrameError Instr :=
  if rest.length = tail.length then (if rest = tail then .ok i else .error .notFill) else .error .badLength

/-- The bytes after byte 0 of a frame whose opcode is `op`. -/
def decodeBody (p : Params) : Operation → List Byte → Except FrameError Instr
  | .pageProgram => decodeAddrWdata .txPageProgram
  | .readData => decodeAddrRdata p .txReadData
  | .readStatusRegister1 => decodeFill (fill p 1) .txReadStatusRegister1
  | .writeEnable => decodeBare .txWriteEnable
  | .sectorErase => decodeAddr .txSectorErase
  | .uniqueId => decodeFill (uidTail p) .txUniqueId
  | .block32Erase => decodeAddr .txBlock32Erase
  | .block64Erase => decodeAddr .txBlock64Erase
  | .chipErase => decodeBare .txChipErase
  | .enableReset => decodeBare .txEnableReset
  | .powerDown => decodeBare .txPowerDown
  | .releasePowerDown => decodeBare .txReleasePowerDown
  | .reset => decodeBare .txReset

/-- The frame a byte sequence is: total on any bytes. The block itself only emits frames (R75); this is the reading R72
gives for tests and for the reference chip. -/
def decodeFrame (p : Params) : List Byte → Except FrameError Instr
  | [] => .error .empty
  | b :: rest =>
    match operationOf b with
    | none => .error (.unusedOpcode b)
    | some op => decodeBody p op rest

/-! ### Decoding a request record (R84, R87) -/

/-- set_hold and set_wp are refused in the SUSPENDING variant (R87, R207). -/
def refusePins (v : Variant) (i : Instr) : Except Refused Instr :=
  if v = .suspending && i.usesPin then .error .noPins else .ok i

/-- The request a record spells in the given variant (R84, R87). -/
def decodeRequest (v : Variant) (w : RequestWord) : Except Refused Instr :=
  match w.code.toNat with
  | 0x0 => .ok .capacity
  | 0x1 => .ok .model
  | 0x2 => .ok (.read w.addr w.len)
  | 0x3 => .ok (.program w.addr w.data)
  | 0x4 => .ok (.eraseSector w.addr)
  | 0x5 => .ok (.eraseB32 w.addr)
  | 0x6 => .ok (.eraseB64 w.addr)
  | 0x7 => .ok (.eraseChip w.addr)
  | 0x8 => .ok .uniqueId
  | 0x9 => .ok .powerDown
  | 0xA => .ok .releasePowerDown
  | 0xB => .ok .reset
  | 0xC => refusePins v (.setHold w.level)
  | 0xD => refusePins v (.setWp w.level)
  | _ => .error .reservedCode

/-! ### Reading a line of request text (R85, R86) -/

/-- A token of a request line. -/
inductive Token
  | comma
  | lbrack
  | rbrack
  | word (w : List Char)
  deriving DecidableEq, Repr

/-- Ends the word being read (held last character first), if there is one. -/
def flushWord (cur : List Char) (ts : List Token) : List Token :=
  if cur.isEmpty then ts else .word cur.reverse :: ts

/-- The tokens of a line; a semicolon starts a comment (R85). -/
def tokenize (cur : List Char) : List Char → List Token
  | [] => flushWord cur []
  | c :: cs =>
    if c = ';' then flushWord cur []
    else if c = ',' then flushWord cur (.comma :: tokenize [] cs)
    else if c = '[' then flushWord cur (.lbrack :: tokenize [] cs)
    else if c = ']' then flushWord cur (.rbrack :: tokenize [] cs)
    else if c.isWhitespace then flushWord cur (tokenize [] cs)
    else tokenize (c :: cur) cs

/-- The value of a digit, decimal or hexadecimal. -/
def digitValue (c : Char) : Option Nat :=
  if '0' ≤ c ∧ c ≤ '9' then some (c.toNat - '0'.toNat)
  else if 'a' ≤ c ∧ c ≤ 'f' then some (c.toNat - 'a'.toNat + 10)
  else if 'A' ≤ c ∧ c ≤ 'F' then some (c.toNat - 'A'.toNat + 10)
  else none

/-- The number a run of digits spells, most significant first, above the digits already read. -/
def digitsValue (base : Nat) (acc : Nat) : List Char → Option Nat
  | [] => some acc
  | c :: cs =>
    match digitValue c with
    | none => none
    | some d => if d < base then digitsValue base (acc * base + d) cs else none

/-- A number: decimal, or hexadecimal after 0x (R85). -/
def parseNat : List Char → Option Nat
  | [] => none
  | '0' :: 'x' :: [] => none
  | '0' :: 'x' :: ds => digitsValue 16 0 ds
  | ds => digitsValue 10 0 ds

/-- An address operand: a number of HOST_ADDR_BITS bits (R52). -/
def parseAddr (w : List Char) : Option Addr :=
  match parseNat w with
  | none => none
  | some n => if n < 2 ^ 32 then some (BitVec.ofNat 32 n) else none

/-- A byte of a data operand. -/
def parseByte (w : List Char) : Option Byte :=
  match parseNat w with
  | none => none
  | some n => if n < 2 ^ 8 then some (BitVec.ofNat 8 n) else none

/-- The bytes of a bracketed list up to its closing bracket, which ends the line: one or more, separated by commas. -/
def parseBytes : List Token → Option (List Byte)
  | [.word w, .rbrack] => (parseByte w).map fun b => [b]
  | .word w :: .comma :: ts =>
    match parseByte w, parseBytes ts with
    | some b, some bs => some (b :: bs)
    | _, _ => none
  | _ => none

/-- A pin level operand (R85). -/
def parseLevel (w : List Char) : Option Level :=
  if w = "low".toList then some .low else if w = "high".toList then some .high else none

/-- The requests without an operand (R85); erase.chip may stand without its ignored address (R86). -/
def parseBare (m : List Char) : Option Instr :=
  if m = "capacity".toList then some .capacity
  else if m = "model".toList then some .model
  else if m = "erase.chip".toList then some (.eraseChip 0)
  else if m = "unique_id".toList then some .uniqueId
  else if m = "power_down".toList then some .powerDown
  else if m = "release_power_down".toList then some .releasePowerDown
  else if m = "reset".toList then some .reset
  else none

/-- The requests with one operand (R85, R86). -/
def parseOne (m x : List Char) : Option Instr :=
  if m = "erase.sector".toList then (parseAddr x).map .eraseSector
  else if m = "erase.b32".toList then (parseAddr x).map .eraseB32
  else if m = "erase.b64".toList then (parseAddr x).map .eraseB64
  else if m = "erase.chip".toList then (parseAddr x).map .eraseChip
  else if m = "set_hold".toList then (parseLevel x).map .setHold
  else if m = "set_wp".toList then (parseLevel x).map .setWp
  else none

/-- The requests with two operands: read, and the alias erase G, ADDR (R86). -/
def parseTwo (m x y : List Char) : Option Instr :=
  if m = "read".toList then
    match parseAddr x, parseNat y with
    | some a, some n => some (.read a n)
    | _, _ => none
  else if m = "erase".toList then
    if x = "sector".toList then (parseAddr y).map .eraseSector
    else if x = "b32".toList then (parseAddr y).map .eraseB32
    else if x = "b64".toList then (parseAddr y).map .eraseB64
    else if x = "chip".toList then (parseAddr y).map .eraseChip
    else none
  else none

/-- program and its alias write, with the bytes of the data operand (R85, R86). -/
def parseProgram (m x : List Char) (d : Option (List Byte)) : Option Instr :=
  if m = "program".toList ∨ m = "write".toList then
    match parseAddr x, d with
    | some a, some bs => some (.program a bs)
    | _, _ => none
  else none

/-- The request a token list spells. -/
def parseTokens : List Token → Option Instr
  | [.word m] => parseBare m
  | [.word m, .word x] => parseOne m x
  | [.word m, .word x, .comma, .word y] => parseTwo m x y
  | [.word m, .word x, .comma, .lbrack, .rbrack] => parseProgram m x (some [])
  | .word m :: .word x :: .comma :: .lbrack :: ts => parseProgram m x (parseBytes ts)
  | _ => none

/-- The request a line of text spells in the given variant: an unknown mnemonic or a wrong operand shape is RefusedSyntax
(R87). -/
def decodeText (v : Variant) (line : List Char) : Except Refused Instr :=
  match parseTokens (tokenize [] line) with
  | none => .error .badText
  | some i => refusePins v i

/-- What is presented at the request port, decoded (R87, R151). -/
def decodeInput (v : Variant) : HostInput → Except Refused Instr
  | .record w => decodeRequest v w
  | .text line => decodeText v line

/-! ### The host's question about a word of the opcode table -/

/-- The length of the shortest frame of an operation (R70, R76). -/
def minFrameLength (p : Params) : Operation → Nat
  | .pageProgram => 4
  | .readData => 4
  | .readStatusRegister1 => 2
  | .writeEnable => 1
  | .sectorErase => 4
  | .uniqueId => 1 + Config.uidDummyLen + p.uidLen
  | .block32Erase => 4
  | .block64Erase => 4
  | .chipErase => 1
  | .enableReset => 1
  | .powerDown => 1
  | .releasePowerDown => 1
  | .reset => 1

/-- A frame of this operation may be longer than the shortest (R76: by its data or receive bytes). -/
def Operation.openEnded : Operation → Bool
  | .pageProgram => true
  | .readData => true
  | _ => false

/-- The frame bytes of a table word: its bytes, filled up with zeros to the operation's length; bytes beyond the length of
an operation whose length is fixed are no part of the instruction. -/
def tableFrameBytes (p : Params) (nbits w : Nat) : List Byte :=
  let given := bytesOfNat ((nbits + 7) / 8) w
  match given.head?.bind operationOf with
  | none => given
  | some op =>
    let padded := given ++ List.replicate (minFrameLength p op - given.length) 0
    if op.openEnded then padded else padded.take (minFrameLength p op)

/-- The request record a table word of at most eight bits spells: bits 3..0 are the code, every operand is zero. -/
def tableRecord (w : Nat) : RequestWord :=
  { code := BitVec.ofNat 4 w, addr := 0, len := 0, data := [], level := .low }

/-- The word is read at the request port: at most eight bits, with a value that is a request code (R84: 4 bits). The table
numbers the rows of two ports, and four words (2, 3, 5, 6) stand for a request and for a frame: such a word is the request,
because the block decodes requests and never opcodes (R75, R151; assumption 6). -/
def isPortWord (nbits w : Nat) : Bool := decide (nbits ≤ 8) && decide (w < 16)

/-- The instruction the decoders read from a word of opcode_table.json. -/
def decodeTableWord (nbits w : Nat) : Option Instr :=
  if isPortWord nbits w then (decodeRequest .blocking (tableRecord w)).toOption
  else (decodeFrame Config.params (tableFrameBytes Config.params nbits w)).toOption

/-! ### Encoders -/

/-- An encoded instruction: the bytes of a frame, or a record at the request port. -/
inductive Encoded
  | frame (bytes : List Byte)
  | request (w : RequestWord)
  deriving DecidableEq, Repr

/-- The bytes of a frame whose address fits; an ill-formed frame has no bytes. -/
def Encoded.ofFrame : Except ContractFault (List Byte) → Encoded
  | .error _ => .frame []
  | .ok bytes => .frame bytes

/-- A request record with the given code and no operand (R84). -/
def bareRecord (code : Code) : RequestWord := { code, addr := 0, len := 0, data := [], level := .low }

/-- The encoding of an instruction (R70, R84, R125 to R137). -/
def encode (p : Params) : Instr → Encoded
  | .txPageProgram a d => .ofFrame (frame .pageProgram a d)
  | .txReadData a n => .ofFrame (frame .readData a (fill p n))
  | .txReadStatusRegister1 => .ofFrame (frame .readStatusRegister1 0 (fill p 1))
  | .txWriteEnable => .ofFrame (frame .writeEnable 0 [])
  | .txSectorErase a => .ofFrame (frame .sectorErase a [])
  | .txUniqueId => .ofFrame (frame .uniqueId 0 (uidTail p))
  | .txBlock32Erase a => .ofFrame (frame .block32Erase a [])
  | .txBlock64Erase a => .ofFrame (frame .block64Erase a [])
  | .txChipErase => .ofFrame (frame .chipErase 0 [])
  | .txEnableReset => .ofFrame (frame .enableReset 0 [])
  | .txPowerDown => .ofFrame (frame .powerDown 0 [])
  | .txReleasePowerDown => .ofFrame (frame .releasePowerDown 0 [])
  | .txReset => .ofFrame (frame .reset 0 [])
  | .capacity => .request (bareRecord 0x0)
  | .model => .request (bareRecord 0x1)
  | .read a n => .request { bareRecord 0x2 with addr := a, len := n }
  | .program a d => .request { bareRecord 0x3 with addr := a, data := d }
  | .eraseSector a => .request { bareRecord 0x4 with addr := a }
  | .eraseB32 a => .request { bareRecord 0x5 with addr := a }
  | .eraseB64 a => .request { bareRecord 0x6 with addr := a }
  | .eraseChip a => .request { bareRecord 0x7 with addr := a }
  | .uniqueId => .request (bareRecord 0x8)
  | .powerDown => .request (bareRecord 0x9)
  | .releasePowerDown => .request (bareRecord 0xA)
  | .reset => .request (bareRecord 0xB)
  | .setHold l => .request { bareRecord 0xC with level := l }
  | .setWp l => .request { bareRecord 0xD with level := l }

/-- Why an encoded word is no instruction. -/
inductive DecodeError
  | frame (e : FrameError)
  | request (r : Refused)
  deriving DecidableEq, Repr

/-- Either port's decoder. -/
def decode (v : Variant) (p : Params) : Encoded → Except DecodeError Instr
  | .frame bytes =>
    match decodeFrame p bytes with
    | .error e => .error (.frame e)
    | .ok i => .ok i
  | .request w =>
    match decodeRequest v w with
    | .error r => .error (.request r)
    | .ok i => .ok i

end Sys2Proof
end

