-- ==== Sys2Proof/Machine/State.lean ====
section
/-!
DEFINITION. The state of one block instance (spec 10_state.md R21), as plain data, with the inputs the outside world has
lined up for it (60_exceptions.md R246), and the state after a successful construction (70_reset_and_hazards.md R272).
-/

namespace Sys2Proof.Machine

/-- The error kinds (R230), with their payloads. -/
inductive BlockError
  | transportError (e : TransportErr)
  | pinError (e : PinErr)
  | notAligned
  | outOfBounds
  | writeEnableFail
  | readbackFail
  deriving DecidableEq, Repr

/-- The generic classification of an error (R232). -/
inductive GenericKind
  | notAligned
  | outOfBounds
  | other
  deriving DecidableEq, Repr

/-- The protocol phase: the block's only sequencing state (R23, R24). -/
inductive Phase
  | idle
  | writeEnableSent
  | confirmed
  | commandIssued
  | pollingBusy
  | suspended
  | verifying
  | resetEnableSent
  | complete
  | failed (e : BlockError)
  | faulted
  deriving DecidableEq, Repr

/-- The success payload of a request (R25). -/
inductive Payload
  /-- program, every erase, power_down, release_power_down, reset, set_hold, set_wp. -/
  | nothing
  /-- read: the bytes read; unique_id: the identifier. -/
  | bytes (b : List Byte)
  /-- capacity. -/
  | capacity (n : Nat)
  /-- model. -/
  | geometry (g : Geometry)
  deriving DecidableEq, Repr

/-- What the respond step delivers to the host (R154, R232): the payload, or the specific and the generic error. -/
inductive Response
  | ok (p : Payload)
  | err (e : BlockError) (g : GenericKind)
  deriving DecidableEq, Repr

/-- The level a pin was last driven to; Unknown after a failed pin write (R28). -/
inductive PinLevel
  | low
  | high
  | unknown
  deriving DecidableEq, Repr

/-- The two pin outputs, which only the BLOCKING variant has (R21, R26). -/
structure PinLevels where
  hold : PinLevel
  wp : PinLevel
  deriving DecidableEq, Repr

/-- An event of the trace (R34). -/
inductive Event
  | tx (out : List Byte) (r : XferResult)
  | pin (p : Pin) (l : Level) (r : PinResult)
  | yielded
  | resumed
  | respond (r : Response)
  | cancelled
  deriving DecidableEq, Repr

/-- What the outside world has lined up at the block's interfaces (R246). These are the MODEL's fields (assumptions 1
and 2): the spec's block has ports, and this is what stands at them. No step fills `port`: a second request comes while one is in
progress only where the state it is taken from already holds it (DESIGN CHOICE, assumption 19). -/
structure Env where
  /-- The request presented at the port now, whatever the phase; the host puts it there between steps (assumption 19). -/
  port : Option HostInput
  /-- The requests a serial host will present, in order, each at Idle (R60, R284). -/
  hostQueue : List HostInput
  /-- The answers of the coming transactions; a transaction beyond them gets `Config.freeXfer`. -/
  xferIn : List XferResult
  /-- The answers of the coming pin writes; a pin write beyond them gets `Config.freePin`. -/
  pinIn : List PinResult
  /-- What the scheduler delivers at the coming suspensions; beyond them it delivers nothing (R208). -/
  schedIn : List SchedInput
  /-- Transactions made so far: the index of the next free answer. -/
  xferCount : Nat
  /-- Pin writes made so far: the index of the next free answer. -/
  pinCount : Nat
  deriving DecidableEq, Repr

/-- The state of one block instance (R21). -/
structure State where
  /-- Config (R21, R22): which variant. -/
  variant : Variant
  /-- Config: the geometry. -/
  geom : Geometry
  /-- Config: readback verification after a program. -/
  verifyReadback : Bool
  /-- Config: the other parameters of R6. -/
  params : Params
  /-- The sequencing state (R23). -/
  phase : Phase
  /-- The request accepted and not yet responded to (R25). -/
  req : Option Request
  /-- The success payload (R25). -/
  result : Option Payload
  /-- hold_level and wp_level (R28); none in SUSPENDING (R207). -/
  pins : Option PinLevels
  /-- The faults recorded (R35, R240): a set, held as a list without repeats. -/
  faults : List ContractFault
  /-- Ghost: status-read transactions of the current poll (R33). -/
  statusReads : Nat
  /-- Ghost: yields of the current request (R33). -/
  suspensions : Nat
  /-- Ghost: a destructive request was cut short after its command (R33). -/
  chipStateUnknown : Bool
  /-- Ghost: the external actions, in order (R34). -/
  trace : List Event
  /-- The state-wide mark that refusals happened, and which (R241). -/
  refusals : List Refused
  /-- What stands at the interfaces. -/
  env : Env
  deriving DecidableEq, Repr

/-- Why the machine stops: `Outcome.fault`. -/
inductive Fault
  /-- Raised by every step and every meaning in the phase Faulted: the block performs no further step of any kind (R23, R240).
  `faults` are the contract faults recorded. Safe: the spec gives the state no continuation. -/
  | stopped (faults : List ContractFault)
  deriving DecidableEq, Repr

/-- Why the model gives no step: `Outcome.refused`. -/
inductive Refusal
  /-- Raised by an arm of `exec` whose instruction has no meaning in the model yet. Safe. -/
  | notModelled (mnemonic : String)
  /-- Raised by a command frame executed where the transition tables (R150, R201) do not select that frame for the phase and
  the latched request, and by `step` in such a phase: the step is impossible by construction (R24), and no step answers it from a
  state a run reaches. Safe. -/
  | noSuchStep
  deriving DecidableEq, Repr

/-- The outcome of a step. -/
abbrev Result := Host.Outcome State Fault Refusal

/-- Nothing stands at any interface. -/
def Env.empty : Env :=
  { port := none, hostQueue := [], xferIn := [], pinIn := [], schedIn := [], xferCount := 0, pinCount := 0 }

/-- The reset state of R272: the state after a successful construction with the given configuration. -/
def State.constructed (v : Variant) (g : Geometry) (verify : Bool) (p : Params) : State where
  variant := v
  geom := g
  verifyReadback := verify
  params := p
  phase := .idle
  req := none
  result := none
  pins :=
    match v with
    | .blocking => some { hold := .high, wp := .high }
    | .suspending => none
  faults := []
  statusReads := 0
  suspensions := 0
  chipStateUnknown := false
  trace :=
    match v with
    | .blocking => [.pin .hold .high .ok, .pin .wp .high .ok]
    | .suspending => []
  refusals := []
  env := Env.empty

/-- The machine after reset: a BLOCKING block over GEOM_4M (DESIGN CHOICE, assumption 4: the spec's reset keeps the
configuration as constructed and names no default), with the OPEN parameters left free. -/
def State.reset : State :=
  State.constructed .blocking Config.geom4M Config.openVerifyReadback Config.params

end Sys2Proof.Machine
end

