-- ==== Sys2Proof/Machine/Geometry.lean ====
section
/-!
DEFINITION. The geometry model and its validator (spec 40_geometry.md). Every derived quantity is a function of the two base
values, never a field (R103).
-/

namespace Sys2Proof

namespace Geometry

/-- CAPACITY (R101). -/
def capacity (g : Geometry) : Nat := g.pageSize * g.nPages

/-- SECTOR_SIZE (R102). -/
def sectorSize (g : Geometry) : Nat := g.pageSize * 16

/-- N_SECTORS (R102). -/
def nSectors (g : Geometry) : Nat := g.nPages / 16

/-- BLOCK_32K_SIZE (R102). -/
def block32KSize (g : Geometry) : Nat := g.sectorSize * 8

/-- N_BLOCKS_32K (R102). -/
def nBlocks32K (g : Geometry) : Nat := g.nSectors / 8

/-- BLOCK_64K_SIZE (R102). -/
def block64KSize (g : Geometry) : Nat := g.block32KSize * 2

/-- N_BLOCKS_64K (R102). -/
def nBlocks64K (g : Geometry) : Nat := g.nBlocks32K / 2

/-- gsize (R109): the size a granularity's address must be a multiple of; a chip erase has none. -/
def gsize (g : Geometry) : Granularity → Option Nat
  | .sector => some g.sectorSize
  | .block32K => some g.block32KSize
  | .block64K => some g.block64KSize
  | .chip => none

end Geometry

namespace GeometryDecl

/-- V1 (R105): a declared capacity equals PAGE_SIZE × N_PAGES. -/
def v1 (d : GeometryDecl) : Bool :=
  match d.capacityDecl with
  | none => true
  | some c => c == d.geom.capacity

/-- V2 (R106): the page size is 256. -/
def v2 (d : GeometryDecl) : Bool := d.geom.pageSize == 256

/-- V3 (R106): the page count is a non-zero multiple of 256. -/
def v3 (d : GeometryDecl) : Bool := decide (256 ≤ d.geom.nPages) && d.geom.nPages % 256 == 0

/-- V4 (R106): every byte of the chip is 24-bit addressable. -/
def v4 (d : GeometryDecl) : Bool := decide (d.geom.capacity ≤ addrLimit)

/-- The validator (R107): the checks in order; a refusal names the first that fails. -/
def validate (d : GeometryDecl) : Except Refused Geometry :=
  if !d.v1 then .error (.geometry .v1)
  else if !d.v2 then .error (.geometry .v2)
  else if !d.v3 then .error (.geometry .v3)
  else if !d.v4 then .error (.geometry .v4)
  else .ok d.geom

end GeometryDecl

/-- A geometry the validator admits (V2 to V4; V1 concerns only a declared capacity). -/
def Geometry.admitted (g : Geometry) : Bool := (GeometryDecl.mk g none).validate == .ok g

end Sys2Proof
end

