-- ==== Sys2Proof/Machine/Operands.lean ====
section
/-!
DEFINITION. What the requests check of their operands before any traffic (spec 42_driver_blocking.md R170, R172, R175, R179,
20_memory.md R54), and where a response's meaningful bytes stand (30_encoding.md R71). All sums are exact (R7, D2).
-/

namespace Sys2Proof.Machine

/-- The outcome of a request's checks, in the order its rule states them (R236). -/
inductive Verdict
  | pass
  | fail (e : BlockError)
  | fault (f : ContractFault)
  deriving DecidableEq, Repr

/-- The last check of an address-taking request: the encoder's precondition (R121). -/
def checkFrameAddr (a : Addr) : Verdict :=
  if addrLimit ≤ a.toNat then .fault (.encoderAddressRange a) else .pass

/-- read's checks (R170). -/
def checkRead (g : Geometry) (a : Addr) (n : Nat) : Verdict :=
  if g.capacity < a.toNat + n then .fail .outOfBounds else checkFrameAddr a

/-- PROGRAM_BOUNDARY_ERROR as an error kind. -/
def boundaryError (p : Params) (tooLong : Bool) : BlockError :=
  match (if tooLong then p.boundaryTooLong else p.boundaryCrossing) with
  | .notAligned => .notAligned
  | .outOfBounds => .outOfBounds

/-- program's checks P1, P2, P3 (R172). -/
def checkProgram (g : Geometry) (p : Params) (a : Addr) (d : List Byte) : Verdict :=
  if g.pageSize < a.toNat % g.pageSize + d.length then .fail (boundaryError p (decide (g.pageSize < d.length)))
  else if decide (g.capacity < a.toNat + d.length) && p.programChecksCapacity then .fail .outOfBounds
  else checkFrameAddr a

/-- erase's checks E1, E2, E3 (R175); none for a chip erase (R179). -/
def checkErase (g : Geometry) (p : Params) (gran : Granularity) (a : Addr) : Verdict :=
  match g.gsize gran with
  | none => .pass
  | some size =>
    if a.toNat % size ≠ 0 then .fail .notAligned
    else if decide (g.capacity ≤ a.toNat) && p.eraseChecksCapacity then .fail .outOfBounds
    else checkFrameAddr a

/-- The checks of any request (R168 to R186). -/
def requestVerdict (g : Geometry) (p : Params) : Request → Verdict
  | .read a n => checkRead g a n
  | .program a d => checkProgram g p a d
  | .erase gran a => checkErase g p gran a
  | _ => .pass

/-- `in[from .. from+n]` of a response (R8). -/
def slice (received : List Byte) (start n : Nat) : List Byte := (received.drop start).take n

/-- The data bytes of a read or a readback: `in[4 .. 4+n]` (R71). -/
def readBytes (received : List Byte) (n : Nat) : List Byte := slice received 4 n

/-- The identifier: `in[5 .. 5+UID_LEN]` (R71, R181). -/
def uidBytes (p : Params) (received : List Byte) : List Byte := slice received (1 + Config.uidDummyLen) p.uidLen

/-- SR1 of a status read: `in[1]` (R160). -/
def sr1 (received : List Byte) : Byte := received.getD 1 0

end Sys2Proof.Machine
end

