-- ==== Sys2Proof/Machine/Flags.lean ====
section
/-!
DEFINITION. The two bits of SR1 the block reads (spec 10_state.md R29 to R31), and the classification of its errors
(60_exceptions.md R230, R232). The block has no flags of its own (R32).
-/

namespace Sys2Proof.Machine

/-- BUSY (R30): bit 0 of SR1. -/
def busy (s : Byte) : Bool := s.getLsbD Config.busyBit

/-- The write-enable latch as SR1 reports it (R31): bit WEL_BIT. -/
def wel (p : Params) (s : Byte) : Bool := s.getLsbD p.welBit.val

/-- The generic kind of an error (R232). -/
def BlockError.generic : BlockError → GenericKind
  | .transportError _ => .other
  | .pinError _ => .other
  | .notAligned => .notAligned
  | .outOfBounds => .outOfBounds
  | .writeEnableFail => .other
  | .readbackFail => .other

/-- The numeric code of an error kind (R230). -/
def BlockError.code : BlockError → Nat
  | .transportError _ => 1
  | .pinError _ => 2
  | .notAligned => 3
  | .outOfBounds => 4
  | .writeEnableFail => 5
  | .readbackFail => 6

end Sys2Proof.Machine
end

