-- ==== Sys2Proof/Machine/Ops.lean ====
section
/-!
DEFINITION. The shared operations of the block: its primitives Xfer, SetPin, Yield, raise, fault and respond (spec
00_scope.md R9), the accept step (42_driver_blocking.md R151) and the rows of the transition tables (R150,
43_driver_suspending.md R201) that say which frame a phase sends.
-/

namespace Sys2Proof.Machine

/-! ### Small updates -/

/-- Appends an event to the trace (R34). -/
def State.record (e : Event) (s : State) : State := { s with trace := s.trace ++ [e] }

/-- `phase <- p` (R9). -/
def State.goto (p : Phase) (s : State) : State := { s with phase := p }

/-- Success: `result` holds the payload and the phase is Complete (R25). -/
def State.finish (pl : Payload) (s : State) : State := { s with result := some pl, phase := .complete }

/-- Accepting a request latches it and sets `suspensions` to 0 (R151). -/
def State.latch (r : Request) (s : State) : State := { s with req := some r, suspensions := 0 }

/-- `status_reads` counts one more status-read transaction of the poll (R33, R161). -/
def State.countRead (s : State) : State := { s with statusReads := s.statusReads + 1 }

/-- A refusal happened (R241): the mark, and nothing else. -/
def State.markRefused (k : Refused) (s : State) : State := { s with refusals := s.refusals ++ [k] }

/-! ### The failed state and faults: entry and return -/

/-- Entry into the failed state, `raise Error(kind, info)` (R234): the phase is written and nothing else; no context is
saved. -/
def State.raise (e : BlockError) (s : State) : State := { s with phase := .failed e }

/-- `fault F(info)` (R9, R240): the fault is recorded, for good (R35), and the phase is Faulted. -/
def State.recordFault (f : ContractFault) (s : State) : State :=
  { s with faults := if f ∈ s.faults then s.faults else s.faults ++ [f], phase := .faulted }

/-- A transaction's Err (R155): Failed(TransportError(e)); from the command transaction of a destructive request on, the
chip's state is unknown (R33, R237). -/
def State.failTransport (afterCommand : Bool) (e : TransportErr) (s : State) : State :=
  { s with phase := .failed (.transportError e), chipStateUnknown := s.chipStateUnknown || afterCommand }

/-- What the respond step delivers (R154): `Ok(result)` from Complete, the error and its generic kind from Failed. -/
def State.response (s : State) : Response :=
  match s.phase with
  | .failed e => .err e e.generic
  | _ => .ok (s.result.getD .nothing)

/-- The respond step, also the return from the failed state (R154, R235): deliver, clear `req` and `result`, go to Idle. -/
def State.deliver (s : State) : State :=
  { s with trace := s.trace ++ [.respond s.response], req := none, result := none, phase := .idle }

/-! ### The transport: Xfer (R55) -/

/-- What the next transaction will return. -/
def State.xferAnswer (s : State) : XferResult :=
  match s.env.xferIn with
  | r :: _ => r
  | [] => Config.freeXfer s.env.xferCount

/-- One transaction has been performed: its event, and its answer is used up. -/
def State.afterXfer (out : List Byte) (s : State) : State :=
  { s with
    trace := s.trace ++ [.tx out s.xferAnswer]
    env := { s.env with xferIn := s.env.xferIn.tail, xferCount := s.env.xferCount + 1 } }

/-- `Xfer(out)`: one transaction, then what follows an Ok or an Err. An Ok of another length than `out` is the fault
TransportContract (R55, R240). -/
def State.xfer (out : List Byte) (onOk : List Byte → State → State) (onErr : TransportErr → State → State)
    (s : State) : State :=
  match s.xferAnswer with
  | .ok received =>
    if received.length = out.length then onOk received (s.afterXfer out)
    else (s.afterXfer out).recordFault .transportContract
  | .err e => onErr e (s.afterXfer out)

/-! ### The pins: SetPin (R27, R28) -/

/-- What the next pin write will return. -/
def State.pinAnswer (s : State) : PinResult :=
  match s.env.pinIn with
  | r :: _ => r
  | [] => Config.freePin s.env.pinCount

/-- One pin write has been performed. -/
def State.afterPin (p : Pin) (l : Level) (s : State) : State :=
  { s with
    trace := s.trace ++ [.pin p l s.pinAnswer]
    env := { s.env with pinIn := s.env.pinIn.tail, pinCount := s.env.pinCount + 1 } }

/-- The level a pin is recorded at after a write of `l` that returned `r` (R28). -/
def recordedLevel (l : Level) : PinResult → PinLevel
  | .err _ => .unknown
  | .ok =>
    match l with
    | .low => .low
    | .high => .high

/-- Writes the record of one pin; the SUSPENDING variant has none. -/
def State.setLevel (p : Pin) (v : PinLevel) (s : State) : State :=
  { s with
    pins := s.pins.map fun q =>
      match p with
      | .hold => { q with hold := v }
      | .wp => { q with wp := v } }

/-- set_hold and set_wp's action (R185, R186): the pin write, its record, and Complete or Failed(PinError(e)). -/
def State.drivePin (p : Pin) (l : Level) (s : State) : State :=
  let t := (s.afterPin p l).setLevel p (recordedLevel l s.pinAnswer)
  match s.pinAnswer with
  | .ok => t.finish .nothing
  | .err e => t.raise (.pinError e)

/-! ### Which frame a phase sends (R150, R201) -/

/-- The first transaction of a request whose checks passed; none for capacity, model and the pin requests. -/
def firstFrame : Request → Option Instr
  | .capacity => none
  | .model => none
  | .read a n => some (.txReadData a n)
  | .program _ _ => some .txWriteEnable
  | .erase _ _ => some .txWriteEnable
  | .uniqueId => some .txUniqueId
  | .powerDown => some .txPowerDown
  | .releasePowerDown => some .txReleasePowerDown
  | .reset => some .txEnableReset
  | .setHold _ => none
  | .setWp _ => none

/-- The command frame of a destructive request, `cmd(req)` (R159). -/
def commandFrame : Request → Option Instr
  | .program a d => some (.txPageProgram a d)
  | .erase .sector a => some (.txSectorErase a)
  | .erase .block32K a => some (.txBlock32Erase a)
  | .erase .block64K a => some (.txBlock64Erase a)
  | .erase .chip _ => some .txChipErase
  | _ => none

/-- A status read, where the request is one that polls. -/
def statusFrame (r : Request) : Option Instr := if r.destructive then some .txReadStatusRegister1 else none

/-- The frame the transition tables select for the phase and the latched request. At Idle a latched request is one whose
checks have passed and whose first transaction is next. In the SUSPENDING variant a PollingBusy block yields and sends nothing. -/
def State.selected (s : State) : Option Instr :=
  match s.phase, s.req with
  | .idle, some r => firstFrame r
  | .resetEnableSent, some .reset => some .txReset
  | .writeEnableSent, some r => statusFrame r
  | .confirmed, some r => commandFrame r
  | .commandIssued, some r => statusFrame r
  | .pollingBusy, some r => if s.variant = .blocking then statusFrame r else none
  | .suspended, some r => if s.variant = .suspending then statusFrame r else none
  | .verifying, some (.program a d) => some (.txReadData a d.length)
  | _, _ => none

/-- Sends the command frame `i`, whose bytes are `bytes`, if the tables select it here; a frame that cannot be encoded is
the encoder's fault (R123). -/
def State.send (i : Instr) (bytes : Except ContractFault (List Byte)) (onOk : List Byte → State → State)
    (onErr : TransportErr → State → State) (s : State) : Result :=
  match s.phase with
  | .faulted => .fault (.stopped s.faults)
  | _ =>
    if s.selected = some i then
      match bytes with
      | .error f => .next (s.recordFault f)
      | .ok out => .next (s.xfer out onOk onErr)
    else .refused .noSuchStep

/-! ### The accept step (R151) -/

/-- Accepts a request: at Idle it is latched, its checks are made, and its first action follows if they pass; a request in
any other phase is concurrent use (R152, R243); in Faulted there is no step (R240). -/
def State.accept (r : Request) (verdict : Verdict) (first : State → Result) (s : State) : Result :=
  match s.phase with
  | .faulted => .fault (.stopped s.faults)
  | .idle =>
    match verdict with
    | .pass => first (s.latch r)
    | .fail e => .next ((s.latch r).raise e)
    | .fault f => .next ((s.latch r).recordFault f)
  | _ => .next (s.recordFault .concurrentUse)

/-- A pin request: refused without any effect in the SUSPENDING variant (R87, R207), else accepted. -/
def State.acceptPin (p : Pin) (l : Level) (r : Request) (s : State) : Result :=
  match s.phase, s.variant with
  | .idle, .suspending => .next (s.markRefused .noPins)
  | _, _ => s.accept r .pass fun t => .next (t.drivePin p l)

/-! ### The scheduler (R201, R202, R206) -/

/-- The yield of a SUSPENDING poll (R201). -/
def State.yield (s : State) : State :=
  { s with trace := s.trace ++ [.yielded], suspensions := s.suspensions + 1, phase := .suspended }

/-- The scheduler's Resume is delivered: the status read follows in the same step (R201). -/
def State.resume (s : State) : State :=
  { s with trace := s.trace ++ [.resumed], env := { s.env with schedIn := s.env.schedIn.tail } }

/-- The scheduler's Cancel is delivered (R206). -/
def State.cancel (s : State) : State :=
  { s with
    trace := s.trace ++ [.cancelled]
    chipStateUnknown := true
    req := none
    phase := .idle
    env := { s.env with schedIn := s.env.schedIn.tail } }

/-! ### The host request port -/

/-- The request the block would accept now: the one standing at the port, else the next of a serial host. -/
def State.presented (s : State) : Option HostInput :=
  match s.env.port with
  | some x => some x
  | none => s.env.hostQueue.head?

/-- The presented request leaves the port. -/
def State.consume (s : State) : State :=
  match s.env.port with
  | some _ => { s with env := { s.env with port := none } }
  | none => { s with env := { s.env with hostQueue := s.env.hostQueue.tail } }

/-! ### What the next step does -/

/-- The kinds of step. -/
inductive Action
  /-- Faulted: no step (R240). -/
  | halt
  /-- Idle with no request, or Suspended with nothing from the scheduler: the block waits (R273, R208). -/
  | wait
  /-- The presented request spells nothing (R87). -/
  | refuse (k : Refused)
  /-- The presented request is accepted. -/
  | accept (i : Instr)
  /-- A request stands at the port and the phase is not Idle (R243). -/
  | concurrent
  /-- The command frame the tables select. -/
  | transmit (i : Instr)
  | yield
  /-- Resume is delivered and the status read is made. -/
  | resume
  | cancel
  | respond
  /-- The tables list no step (R24). -/
  | none
  deriving DecidableEq, Repr

/-- The transmission the tables select, if any. -/
def State.transmission (s : State) : Action :=
  match s.selected with
  | some i => .transmit i
  | none => .none

/-- The accept step's decoding (R151). At Idle with a latched request the block stands before that request's first
transaction: a state inside the accept step, which no run stops in and which `State.withFetchWord` uses. -/
def State.idleAction (s : State) : Action :=
  match s.req with
  | some _ => s.transmission
  | none =>
    match s.presented with
    | none => .wait
    | some x =>
      match decodeInput s.variant x with
      | .error k => .refuse k
      | .ok i => .accept i

/-- A suspended block does what the scheduler delivers (R202, R206, R239). -/
def State.suspendedAction (s : State) : Action :=
  match s.selected with
  | none => .none
  | some _ =>
    match s.env.schedIn with
    | [] => .wait
    | .resume :: _ => .resume
    | .cancel :: _ => .cancel

/-- A block that polls: another status read (BLOCKING) or a yield (SUSPENDING, R201). -/
def State.pollingAction (s : State) : Action :=
  match s.variant, s.req with
  | .suspending, some r => if r.destructive then .yield else .none
  | _, _ => s.transmission

/-- What the next step does: the phase, the latched request and the inputs decide (R24, R239). A request at the port comes before a
Resume or Cancel delivered for the same step, which is then not taken (DESIGN CHOICE, assumption 18: the spec gives no order). -/
def State.action (s : State) : Action :=
  match s.phase with
  | .faulted => .halt
  | .idle => s.idleAction
  | p =>
    if s.env.port.isSome then .concurrent
    else
      match p with
      | .complete => .respond
      | .failed _ => .respond
      | .pollingBusy => s.pollingAction
      | .suspended => s.suspendedAction
      | _ => s.transmission

/-- The request at the port in a phase other than Idle: it is taken from the port and the fault is recorded (R243). -/
def State.concurrentUse (s : State) : State := s.consume.recordFault .concurrentUse

/-! ### Placing one instruction as the next (the host's question about an opcode-table word; assumption 5) -/

/-- The phase and the latched request at which the tables select a command frame; none for a request. -/
def framePosition : Instr → Option (Phase × Request)
  | .txPageProgram a d => some (.confirmed, .program a d)
  | .txReadData a n => some (.idle, .read a n)
  | .txReadStatusRegister1 => some (.writeEnableSent, .program 0 [])
  | .txWriteEnable => some (.idle, .program 0 [])
  | .txSectorErase a => some (.confirmed, .erase .sector a)
  | .txUniqueId => some (.idle, .uniqueId)
  | .txBlock32Erase a => some (.confirmed, .erase .block32K a)
  | .txBlock64Erase a => some (.confirmed, .erase .block64K a)
  | .txChipErase => some (.confirmed, .erase .chip 0)
  | .txEnableReset => some (.idle, .reset)
  | .txPowerDown => some (.idle, .powerDown)
  | .txReleasePowerDown => some (.idle, .releasePowerDown)
  | .txReset => some (.resetEnableSent, .reset)
  | _ => none

/-- A request record stands at the port of an idle block. -/
def State.placeRecord (w : RequestWord) (s : State) : State :=
  { s with phase := .idle, req := none, env := { s.env with port := some (.record w) } }

/-- The block stands where the tables select a frame. -/
def State.placeFrame (p : Phase) (r : Request) (s : State) : State :=
  { s with phase := p, req := some r, env := { s.env with port := none } }

/-- The next step runs the instruction of this table word; a word that spells no instruction changes nothing. -/
def State.placeWord (nbits w : Nat) (s : State) : State :=
  if isPortWord nbits w then s.placeRecord (tableRecord w)
  else
    match (decodeTableWord nbits w).bind framePosition with
    | some (p, r) => s.placeFrame p r
    | none => s

end Sys2Proof.Machine
end

