-- ==== Sys2Proof/Machine/Frames.lean ====
section
/-!
DEFINITION. The meanings of the thirteen command frames (spec 41_encoder.md R125 to R137): one transaction each, sent where
the transition tables select it (42_driver_blocking.md R150), and what its answer does to the phase.
-/

namespace Sys2Proof.Machine

/-- What follows an Ok of the command transaction (R158): `status_reads` is 0 and the phase CommandIssued. -/
def commandSent (_received : List Byte) (s : State) : State := { s with statusReads := 0, phase := .commandIssued }

/-- Completion of a frame whose response is ignored (R71). -/
def bareDone (_received : List Byte) (s : State) : State := s.finish .nothing

/-- The write-enable confirmation (R157). -/
def confirmLatch (received : List Byte) (s : State) : State :=
  if wel s.params (sr1 received) then s.goto .confirmed else s.raise .writeEnableFail

/-- The latched request is a program whose write is to be verified (R161). -/
def State.verifies (s : State) : Bool :=
  match s.req with
  | some (.program _ _) => s.verifyReadback
  | _ => false

/-- The branch after a status read of the poll (R161). -/
def pollBranch (received : List Byte) (s : State) : State :=
  if busy (sr1 received) then s.goto .pollingBusy
  else if s.verifies then s.goto .verifying
  else s.finish .nothing

/-- After a ReadData transaction: the readback comparison (R163) or the bytes of a read (R170). -/
def readDone (n : Nat) (received : List Byte) (s : State) : State :=
  match s.phase, s.req with
  | .verifying, some (.program _ d) =>
    if readBytes received d.length = d then s.finish .nothing else s.raise .readbackFail
  | _, _ => s.finish (.bytes (readBytes received n))

/-- The identifier has been read (R181). -/
def uidDone (received : List Byte) (s : State) : State := s.finish (.bytes (uidBytes s.params received))

/-- PageProgram (R125, R158): the command transaction of program, address and data in one frame. -/
def execTxPageProgram (a : Addr) (d : List Byte) (s : State) : Result :=
  s.send (.txPageProgram a d) (frame .pageProgram a d) commandSent (State.failTransport true)

/-- ReadData (R126): a read's transaction, or the readback of a program (an error of which leaves the chip unknown, R155). -/
def execTxReadData (a : Addr) (n : Nat) (s : State) : Result :=
  s.send (.txReadData a n) (frame .readData a (fill s.params n)) (readDone n)
    (State.failTransport (s.phase == .verifying))

/-- ReadStatusRegister1 (R127, R160): the confirmation (R157), or a status read of the poll, which is counted whatever it answers
(R33, R161). -/
def execTxReadStatusRegister1 (s : State) : Result :=
  if s.phase = .writeEnableSent then
    s.send .txReadStatusRegister1 (frame .readStatusRegister1 0 (fill s.params 1)) confirmLatch (State.failTransport false)
  else
    s.countRead.send .txReadStatusRegister1 (frame .readStatusRegister1 0 (fill s.params 1)) pollBranch
      (State.failTransport true)

/-- WriteEnable (R128, R156). -/
def execTxWriteEnable (s : State) : Result :=
  s.send .txWriteEnable (frame .writeEnable 0 []) (fun _ t => t.goto .writeEnableSent) (State.failTransport false)

/-- SectorErase (R129, R158). -/
def execTxSectorErase (a : Addr) (s : State) : Result :=
  s.send (.txSectorErase a) (frame .sectorErase a []) commandSent (State.failTransport true)

/-- UniqueId (R130, R181). -/
def execTxUniqueId (s : State) : Result :=
  s.send .txUniqueId (frame .uniqueId 0 (uidTail s.params)) uidDone (State.failTransport false)

/-- Block32Erase (R131, R158). -/
def execTxBlock32Erase (a : Addr) (s : State) : Result :=
  s.send (.txBlock32Erase a) (frame .block32Erase a []) commandSent (State.failTransport true)

/-- Block64Erase (R132, R158). -/
def execTxBlock64Erase (a : Addr) (s : State) : Result :=
  s.send (.txBlock64Erase a) (frame .block64Erase a []) commandSent (State.failTransport true)

/-- ChipErase (R133, R158): no address. -/
def execTxChipErase (s : State) : Result :=
  s.send .txChipErase (frame .chipErase 0 []) commandSent (State.failTransport true)

/-- EnableReset (R134, R184). -/
def execTxEnableReset (s : State) : Result :=
  s.send .txEnableReset (frame .enableReset 0 []) (fun _ t => t.goto .resetEnableSent) (State.failTransport false)

/-- PowerDown (R135, R182). -/
def execTxPowerDown (s : State) : Result :=
  s.send .txPowerDown (frame .powerDown 0 []) bareDone (State.failTransport false)

/-- ReleasePowerDown (R136, R183): no device-ID byte is read. -/
def execTxReleasePowerDown (s : State) : Result :=
  s.send .txReleasePowerDown (frame .releasePowerDown 0 []) bareDone (State.failTransport false)

/-- Reset (R137, R184). -/
def execTxReset (s : State) : Result :=
  s.send .txReset (frame .reset 0 []) bareDone (State.failTransport false)

end Sys2Proof.Machine
end

