-- ==== Sys2Proof/Machine/Requests.lean ====
section
/-!
DEFINITION. The meanings of the fourteen host requests (spec 42_driver_blocking.md R168 to R186): the accept step of each,
which latches the request, makes its checks and performs its first action (R151). The steps after it are the command frames of
Frames.lean, in the order the phase gives.
-/

namespace Sys2Proof.Machine

/-- capacity (R168): no transaction. -/
def execCapacity (s : State) : Result :=
  s.accept .capacity .pass fun t => .next (t.finish (.capacity t.geom.capacity))

/-- model (R169): no transaction. -/
def execModel (s : State) : Result :=
  s.accept .model .pass fun t => .next (t.finish (.geometry t.geom))

/-- read (R170). -/
def execRead (a : Addr) (n : Nat) (s : State) : Result :=
  s.accept (.read a n) (checkRead s.geom a n) (execTxReadData a n)

/-- program (R172). -/
def execProgram (a : Addr) (d : List Byte) (s : State) : Result :=
  s.accept (.program a d) (checkProgram s.geom s.params a d) execTxWriteEnable

/-- erase.sector (R176). -/
def execEraseSector (a : Addr) (s : State) : Result :=
  s.accept (.erase .sector a) (checkErase s.geom s.params .sector a) execTxWriteEnable

/-- erase.b32 (R177). -/
def execEraseB32 (a : Addr) (s : State) : Result :=
  s.accept (.erase .block32K a) (checkErase s.geom s.params .block32K a) execTxWriteEnable

/-- erase.b64 (R178). -/
def execEraseB64 (a : Addr) (s : State) : Result :=
  s.accept (.erase .block64K a) (checkErase s.geom s.params .block64K a) execTxWriteEnable

/-- erase.chip (R179): no checks, the address is ignored. -/
def execEraseChip (a : Addr) (s : State) : Result :=
  s.accept (.erase .chip a) (checkErase s.geom s.params .chip a) execTxWriteEnable

/-- unique_id (R181). -/
def execUniqueId (s : State) : Result := s.accept .uniqueId .pass execTxUniqueId

/-- power_down (R182): the block keeps no power state. -/
def execPowerDown (s : State) : Result := s.accept .powerDown .pass execTxPowerDown

/-- release_power_down (R183). -/
def execReleasePowerDown (s : State) : Result := s.accept .releasePowerDown .pass execTxReleasePowerDown

/-- reset (R184): EnableReset now, Reset in the next step. -/
def execReset (s : State) : Result := s.accept .reset .pass execTxEnableReset

/-- set_hold (R185). -/
def execSetHold (l : Level) (s : State) : Result := s.acceptPin .hold l (.setHold l)

/-- set_wp (R186). -/
def execSetWp (l : Level) (s : State) : Result := s.acceptPin .wp l (.setWp l)

end Sys2Proof.Machine
end

