-- ==== Sys2Proof/Machine/Dispatch.lean ====
section
/-!
DEFINITION. One arm for each constructor of `Instr`: the dispatch to the meanings.
-/

namespace Sys2Proof.Machine

def exec (i : Instr) (s : State) : Host.Outcome State Fault Refusal :=
  match i with
  | .txPageProgram a d => Sys2Proof.Machine.execTxPageProgram a d s
  | .txReadData a n => Sys2Proof.Machine.execTxReadData a n s
  | .txReadStatusRegister1 => Sys2Proof.Machine.execTxReadStatusRegister1 s
  | .txWriteEnable => Sys2Proof.Machine.execTxWriteEnable s
  | .txSectorErase a => Sys2Proof.Machine.execTxSectorErase a s
  | .txUniqueId => Sys2Proof.Machine.execTxUniqueId s
  | .txBlock32Erase a => Sys2Proof.Machine.execTxBlock32Erase a s
  | .txBlock64Erase a => Sys2Proof.Machine.execTxBlock64Erase a s
  | .txChipErase => Sys2Proof.Machine.execTxChipErase s
  | .txEnableReset => Sys2Proof.Machine.execTxEnableReset s
  | .txPowerDown => Sys2Proof.Machine.execTxPowerDown s
  | .txReleasePowerDown => Sys2Proof.Machine.execTxReleasePowerDown s
  | .txReset => Sys2Proof.Machine.execTxReset s
  | .capacity => Sys2Proof.Machine.execCapacity s
  | .model => Sys2Proof.Machine.execModel s
  | .read a n => Sys2Proof.Machine.execRead a n s
  | .program a d => Sys2Proof.Machine.execProgram a d s
  | .eraseSector a => Sys2Proof.Machine.execEraseSector a s
  | .eraseB32 a => Sys2Proof.Machine.execEraseB32 a s
  | .eraseB64 a => Sys2Proof.Machine.execEraseB64 a s
  | .eraseChip a => Sys2Proof.Machine.execEraseChip a s
  | .uniqueId => Sys2Proof.Machine.execUniqueId s
  | .powerDown => Sys2Proof.Machine.execPowerDown s
  | .releasePowerDown => Sys2Proof.Machine.execReleasePowerDown s
  | .reset => Sys2Proof.Machine.execReset s
  | .setHold l => Sys2Proof.Machine.execSetHold l s
  | .setWp l => Sys2Proof.Machine.execSetWp l s

end Sys2Proof.Machine
end

