-- ==== Sys2Proof/Machine/Step.lean ====
section
/-!
DEFINITION. One step of the block (spec 10_state.md R24, 42_driver_blocking.md R150, R151, 43_driver_suspending.md R201): the
action the phase, the latched request and the inputs decide, performed.
-/

namespace Sys2Proof.Machine

/-- One step. -/
def step (s : State) : Host.Outcome State Fault Refusal :=
  match s.action with
  | .halt => .fault (.stopped s.faults)
  | .wait => .next s
  | .refuse k => .next (s.consume.markRefused k)
  | .accept i => exec i s.consume
  | .concurrent => .next s.concurrentUse
  | .transmit i => exec i s
  | .yield => .next s.yield
  | .resume => exec .txReadStatusRegister1 s.resume
  | .cancel => .next s.cancel
  | .respond => .next s.deliver
  | .none => .refused .noSuchStep

/-- `s` with the instruction of a word of opcode_table.json placed where the next step takes it: a request record at the
port of an idle block, or the phase and latched request at which the tables select the frame (assumption 5). -/
def State.withFetchWord (s : State) (nbits w : Nat) : State := s.placeWord nbits w

end Sys2Proof.Machine
end

