-- ==== Sys2Proof/Machine/Memory.lean ====
section
/-!
DEFINITION. The byte array of the reference chip (spec 20_memory.md R64), as a list of cells in one canonical form: addresses
strictly rising, and no cell equal to what an unlisted address reads as, the erased byte 0xFF. The block itself owns no memory
(R50).
-/

namespace Sys2Proof.Machine.Memory

/-- What an unlisted address reads as: the erased byte (R64, all bits set). -/
def erased : Byte := 0xFF

/-- The cells rise strictly above `lo`, and none is erased. -/
def wfAbove (lo : Nat) : List Host.Cell → Bool
  | [] => true
  | c :: m => decide (lo ≤ c.1) && c.2 != erased && wfAbove (c.1 + 1) m

/-- The canonical form. -/
def wf (m : List Host.Cell) : Bool := wfAbove 0 m

/-- The byte at an address. -/
def read (m : List Host.Cell) (a : Nat) : Byte :=
  match m with
  | [] => erased
  | c :: m' => if c.1 = a then c.2 else read m' a

/-- A cell in front of a list, unless it is erased. -/
def consCell (a : Nat) (b : Byte) (m : List Host.Cell) : List Host.Cell :=
  if b = erased then m else (a, b) :: m

/-- Writes one byte, keeping the canonical form. -/
def write (m : List Host.Cell) (a : Nat) (b : Byte) : List Host.Cell :=
  match m with
  | [] => consCell a b []
  | c :: m' =>
    if a < c.1 then consCell a b (c :: m')
    else if a = c.1 then consCell a b m'
    else c :: write m' a b

/-- Sets the `n` bytes from `lo` to the erased byte. -/
def eraseRange (m : List Host.Cell) (lo n : Nat) : List Host.Cell :=
  m.filter fun c => decide (c.1 < lo) || decide (lo + n ≤ c.1)

end Sys2Proof.Machine.Memory
end

