-- ==== Sys2Proof/Machine/RefChip.lean ====
section
/-!
DEFINITION. The reference chip of spec 20_memory.md R64 and R65, and a block joined to it. NOT part of the block: the spec
gives it, from general knowledge, so that an end state can be written down (D31, G10). No rule about the block rests on it.
-/

namespace Sys2Proof.Machine

/-- The reference chip (R64). -/
structure Chip where
  capacity : Nat
  mem : List Host.Cell
  wel : Bool
  busyLeft : Nat
  pd : Bool
  rstEn : Bool
  uid : List Byte
  kBusy : Nat
  deriving DecidableEq, Repr

/-- The address bytes of a frame, A = out[1]<<16 | out[2]<<8 | out[3] (R65), taken mod CAPACITY. An address byte that a shorter frame
lacks reads as 0 (DESIGN CHOICE, assumption 20). -/
def Chip.addr (c : Chip) (out : List Byte) : Nat :=
  ((out.getD 1 0).toNat * 2 ^ 16 + (out.getD 2 0).toNat * 2 ^ 8 + (out.getD 3 0).toNat) % c.capacity

/-- start(k) (R65). -/
def Chip.start (c : Chip) : Chip :=
  { c with busyLeft := c.kBusy, wel := if c.kBusy = 0 then false else c.wel }

/-- The bytes of a program, from the `i`-th on: bits are only cleared, and the address wraps inside its page (R65). -/
def programBytes (a : Nat) (i : Nat) (m : List Host.Cell) : List Byte → List Host.Cell
  | [] => m
  | b :: bs =>
    let p := (a - a % 256) + (a + i) % 256
    programBytes a (i + 1) (Memory.write m p (Memory.read m p &&& b)) bs

/-- A chip that accepts a program or an erase: WEL set and not busy (R65). -/
def Chip.ready (c : Chip) : Bool := c.wel && c.busyLeft == 0

/-- An erase of the block of `size` bytes that holds the address (R65). -/
def Chip.eraseBlock (c : Chip) (size : Nat) (out : List Byte) : Chip :=
  if c.ready then
    let a := c.addr out
    Chip.start { c with mem := Memory.eraseRange c.mem (a - a % size) size }
  else c

/-- `n` undriven response bytes (R65). -/
def undriven (n : Nat) : List Byte := List.replicate n 0xFF

/-- SR1 as the chip drives it (R65): BUSY in bit 0, WEL in bit 1. -/
def Chip.sr1 (c : Chip) : Byte := (if c.busyLeft = 0 then 0 else 1) ||| (if c.wel then 2 else 0)

/-- A status read seen by the chip: one fewer remains busy, and WEL clears with the last (R65). -/
def Chip.statusRead (c : Chip) : Chip :=
  { c with busyLeft := c.busyLeft - 1, wel := if c.busyLeft = 1 then false else c.wel }

/-- A frame of a known operation, without the reset-enable bookkeeping (R65). R65 is silent on a frame shorter than its format, which
the block never sends (R70); DESIGN CHOICE (assumption 20): a status read then answers two bytes and a ReadData four. -/
def Chip.perform (c : Chip) (op : Operation) (out : List Byte) : List Byte × Chip :=
  match op with
  | .writeEnable => (undriven out.length, if c.busyLeft = 0 then { c with wel := true } else c)
  | .readStatusRegister1 => (0xFF :: c.sr1 :: undriven (out.length - 2), c.statusRead)
  | .readData =>
    (undriven 4 ++ (List.range (out.length - 4)).map fun i => Memory.read c.mem ((c.addr out + i) % c.capacity), c)
  | .pageProgram =>
    (undriven out.length,
      if c.ready then Chip.start { c with mem := programBytes (c.addr out) 0 c.mem (out.drop 4) } else c)
  | .sectorErase => (undriven out.length, c.eraseBlock 4096 out)
  | .block32Erase => (undriven out.length, c.eraseBlock 32768 out)
  | .block64Erase => (undriven out.length, c.eraseBlock 65536 out)
  | .chipErase => (undriven out.length, if c.ready then Chip.start { c with mem := [] } else c)
  | .uniqueId =>
    (if 5 + c.uid.length ≤ out.length then undriven 5 ++ c.uid ++ undriven (out.length - (5 + c.uid.length))
      else undriven out.length, c)
  | .powerDown => (undriven out.length, { c with pd := true })
  | .releasePowerDown => (undriven out.length, { c with pd := false })
  | .enableReset => (undriven out.length, c)
  | .reset => (undriven out.length, if c.rstEn then { c with wel := false, busyLeft := 0 } else c)

/-- One transaction of the reference chip (R65): the response bytes and the chip after it. A powered-down chip ignores every
frame but ReleasePowerDown; any frame but EnableReset clears the reset enable. -/
def Chip.answer (c : Chip) (out : List Byte) : List Byte × Chip :=
  match out.head?.bind operationOf with
  | none => (undriven out.length, if c.pd then c else { c with rstEn := false })
  | some op =>
    if c.pd && op != .releasePowerDown then (undriven out.length, c)
    else
      let r := c.perform op out
      (r.1, { r.2 with rstEn := op == .enableReset })

/-- The bytes of the transaction the next step of the block will make, if it makes one. -/
def State.outgoing (s : State) : Option (List Byte) :=
  let next :=
    match s.action with
    | .transmit i => some i
    | .resume => some .txReadStatusRegister1
    | .accept i =>
      match i.request? with
      | some r => if requestVerdict s.geom s.params r = Verdict.pass then firstFrame r else none
      | none => none
    | _ => none
  match next.map (encode s.params) with
  | some (.frame out) => some out
  | _ => none

/-- A block and the reference chip on its transport. -/
structure Rig where
  block : State
  chip : Chip
  deriving DecidableEq, Repr

/-- One step of the block, whose transaction, if it makes one, the chip answers. -/
def Rig.step (r : Rig) : Option Rig :=
  match r.block.outgoing with
  | none =>
    match Sys2Proof.Machine.step r.block with
    | .next b => some { r with block := b }
    | _ => none
  | some out =>
    let answer := r.chip.answer out
    let fed := { r.block with env := { r.block.env with xferIn := .ok answer.1 :: r.block.env.xferIn } }
    match Sys2Proof.Machine.step fed with
    | .next b => some { block := b, chip := answer.2 }
    | _ => none

/-- `n` steps. -/
def Rig.run : Nat → Rig → Option Rig
  | 0, r => some r
  | n + 1, r =>
    match r.step with
    | none => none
    | some r' => Rig.run n r'

end Sys2Proof.Machine
end

