-- ==== Sys2Proof/Machine/Construct.lean ====
section
/-!
DEFINITION. Construction, the block's reset (spec 70_reset_and_hazards.md R270, R271): the geometry is validated, a BLOCKING
block drives its two pins High, and the instance starts in the state of R272.
-/

namespace Sys2Proof.Machine

/-- The outcome of a construction. -/
inductive Construction
  /-- The instance, in its reset state. -/
  | built (s : State)
  /-- A pin could not be set: an error, and no instance (R242, R270), after the pin events listed. -/
  | failed (e : BlockError) (events : List Event)
  /-- The geometry is refused (R107): no instance. -/
  | refused (k : Refused)
  deriving DecidableEq, Repr

/-- The two pin writes of a BLOCKING construction, HOLD first, with their answers (R270). -/
def drivePinsHigh (hold wp : PinResult) : Except (BlockError × List Event) Unit :=
  match hold with
  | .err e => .error (.pinError e, [.pin .hold .high (.err e)])
  | .ok =>
    match wp with
    | .err e => .error (.pinError e, [.pin .hold .high .ok, .pin .wp .high (.err e)])
    | .ok => .ok ()

/-- Construction over a declared geometry; `hold` and `wp` are what the two pin writes return, which a SUSPENDING
construction does not make (R271). -/
def construct (v : Variant) (d : GeometryDecl) (verify : Bool) (p : Params) (hold wp : PinResult) : Construction :=
  match d.validate with
  | .error k => .refused k
  | .ok g =>
    match v with
    | .suspending => .built (State.constructed .suspending g verify p)
    | .blocking =>
      match drivePinsHigh hold wp with
      | .error (e, events) => .failed e events
      | .ok () => .built (State.constructed .blocking g verify p)

end Sys2Proof.Machine
end

