-- ==== Sys2Proof/Safety.lean ====
section
/-!
DEFINITION. What claims about the block speak of: the states a run can reach (an invariant read off the spec's tables, rules R21
to R28, R35, R150, R201, R207), and the good behaviour of the host, the transport and the pins.
-/

namespace Sys2Proof.Machine

/-- `n` steps, ending at the first fault or refusal. -/
def run : Nat → State → Result
  | 0, s => .next s
  | n + 1, s =>
    match step s with
    | .next t => run n t
    | .fault f => .fault f
    | .refused r => .refused r

/-- The latched request agrees with the phase: the rows of R150 and R201. -/
def phaseAllows : Phase → Option Request → Bool
  | .idle, none => true
  | .writeEnableSent, some r => r.destructive
  | .confirmed, some r => r.destructive
  | .commandIssued, some r => r.destructive
  | .pollingBusy, some r => r.destructive
  | .suspended, some r => r.destructive
  | .verifying, some (.program _ _) => true
  | .resetEnableSent, some .reset => true
  | .complete, some _ => true
  | .failed _, some _ => true
  | .faulted, some _ => true
  | _, _ => false

/-- The phases of a destructive request between its acceptance and its end. -/
def Phase.inProtocol : Phase → Bool
  | .writeEnableSent => true
  | .confirmed => true
  | .commandIssued => true
  | .pollingBusy => true
  | .suspended => true
  | .verifying => true
  | _ => false

/-- The phases in which the command transaction of a destructive request is being, or has been, attempted (R33, R155). -/
def Phase.afterCommand : Phase → Bool
  | .confirmed => true
  | .commandIssued => true
  | .pollingBusy => true
  | .suspended => true
  | .verifying => true
  | _ => false

/-- The error is a pin error. -/
def BlockError.isPinError : BlockError → Bool
  | .pinError _ => true
  | _ => false

/-- The phase is a failure by a pin error. -/
def Phase.isPinFailure : Phase → Bool
  | .failed e => e.isPinError
  | _ => false

/-- The invariant of the block: what every state of a run from a construction satisfies. -/
structure State.Inv (s : State) : Prop where
  /-- The geometry passed the validator (R107, R270). -/
  geometry : s.geom.admitted = true
  /-- Pins exist exactly in the BLOCKING variant (R21, R207). -/
  pins : s.pins.isSome = decide (s.variant = .blocking)
  /-- No pin request, and no pin error, in the SUSPENDING variant (R207). -/
  noPinRequest : s.variant = .suspending → s.req.any Request.usesPin = false ∧ s.phase.isPinFailure = false
  /-- The latched request is one the tables list for the phase (R24, R150). -/
  table : phaseAllows s.phase s.req = true
  /-- Suspended is a phase of the SUSPENDING variant (R23). -/
  suspended : s.phase = .suspended → s.variant = .suspending
  /-- Verifying is entered only with readback verification on (R161). -/
  verifying : s.phase = .verifying → s.verifyReadback = true
  /-- A destructive request in progress has passed its checks (R153). -/
  checked : s.phase.inProtocol = true → ∀ r, s.req = some r → requestVerdict s.geom s.params r = Verdict.pass
  /-- A payload is held exactly at Complete, a faulted block apart (R25). -/
  payload : s.phase ≠ .faulted → s.result.isSome = decide (s.phase = .complete)
  /-- Faults are recorded exactly in the phase Faulted (R240). -/
  faulted : s.faults = [] ↔ s.phase ≠ .faulted

/-- A host that serializes its access (R62, R284): no request stands at the port while one is in progress. -/
def State.serialHost (s : State) : Prop := s.phase ≠ .idle → s.env.port = none

/-- The next transaction keeps the transport's contract (R55): an error, or as many bytes as are sent. -/
def State.transportKeepsContract (s : State) (out : List Byte) : Prop :=
  ∀ received, s.xferAnswer = .ok received → received.length = out.length

/-- The event is a transaction, a pin write or a response: an external action (R151). -/
def Event.isAction : Event → Bool
  | .tx _ _ => true
  | .pin _ _ _ => true
  | .respond _ => true
  | .yielded => false
  | .resumed => false
  | .cancelled => false

/-- The event is a pin write. -/
def Event.isPin : Event → Bool
  | .pin _ _ _ => true
  | _ => false

/-- The opcodes of the five destructive commands (R159). -/
def destructiveOpcode (b : Byte) : Bool :=
  b == opcode .pageProgram || b == opcode .sectorErase || b == opcode .block32Erase || b == opcode .block64Erase ||
    b == opcode .chipErase

/-- The event is a transaction whose frame carries a destructive opcode. -/
def Event.isDestructiveTx : Event → Bool
  | .tx (b :: _) _ => destructiveOpcode b
  | _ => false

/-- The error kinds a request can fail with (R231). -/
def canFail (p : Params) : Request → BlockError → Bool
  | .read _ _, .outOfBounds => true
  | .read _ _, .transportError _ => true
  | .program _ _, .notAligned => true
  | .program _ _, .outOfBounds => true
  | .program _ _, .transportError _ => true
  | .program _ _, .writeEnableFail => true
  | .program _ _, .readbackFail => true
  | .erase g _, .notAligned => decide (g ≠ .chip)
  | .erase g _, .outOfBounds => decide (g ≠ .chip) && p.eraseChecksCapacity
  | .erase _ _, .transportError _ => true
  | .erase _ _, .writeEnableFail => true
  | .uniqueId, .transportError _ => true
  | .powerDown, .transportError _ => true
  | .releasePowerDown, .transportError _ => true
  | .reset, .transportError _ => true
  | .setHold _, .pinError _ => true
  | .setWp _, .pinError _ => true
  | _, _ => false

/-- The answer of a status read: the byte received with the opcode, then SR1 (R160). -/
def statusAnswer (b : Byte × Byte) : XferResult := .ok [b.1, b.2]

/-- The event of a status read (R160). -/
def statusEvent (p : Params) (b : Byte × Byte) : Event := .tx [0x05, p.fillByte] (statusAnswer b)

/-- The events of a destructive request up to its command transaction (R156, R157, R158): WriteEnable, the confirmation, and the
command frame `out`. -/
def handshakeEvents (p : Params) (b0 : Byte) (c : Byte × Byte) (out command : List Byte) : List Event :=
  [.tx [0x06] (.ok [b0]), statusEvent p c, .tx out (.ok command)]

/-- The event of a readback (R163): a ReadData frame with `n` receive bytes. -/
def readbackEvent (p : Params) (a : Addr) (n : Nat) (readback : List Byte) : Event :=
  .tx (0x03 :: addrBytes a ++ List.replicate n p.fillByte) (.ok readback)

/-- The state without its ghost fields (R33): what the block's choices may depend on. -/
def State.eraseGhost (s : State) : State :=
  { s with statusReads := 0, suspensions := 0, chipStateUnknown := false, trace := [] }

/-- The outcome without the ghost fields of its next state. -/
def eraseGhost : Result → Result
  | .next s => .next s.eraseGhost
  | .fault f => .fault f
  | .refused r => .refused r

end Sys2Proof.Machine
end

