-- ==== Sys2Proof/Certificates/Slice0/Obligations.lean ====
section
/-!
DEFINITION. The statements for the provers. Each docstring names the rules of spec/ it formalises. In a statement of an
instruction's result the conclusion gives the whole next state, so that it is completion, result and frame at once: every field not
named after `with` is as before. `s.afterXfer out` and `s.afterPin p l` are the state after one transaction or pin write: what they
are is itself stated (`AnExternalActionIsRecorded`).
-/

open Sys2Proof Sys2Proof.Machine

/-! ### Encodings -/

/-- 30_encoding.md R70, R84 and 41_encoder.md R125 to R137: no bit of an encoding is dropped, in either variant and for every
parameter value. (A pin request is refused at decode in the SUSPENDING variant, R87.) -/
def Obligations.EveryWellFormedInstructionDecodesBack : Prop :=
  ∀ (v : Variant) (p : Params) (i : Instr), i.wf = true → (v = .suspending → i.usesPin = false) →
    decode v p (encode p i) = .ok i

/-- The frame decoder accepts only the frames the block emits (R70, R76): what it accepts is well formed and encodes to exactly the
bytes it was read from. The block itself decodes no frame (R75): that there is a frame decoder, and that it asks for FILL_BYTE where
the block only receives, is the model's choice, assumption 16. -/
def Obligations.FrameDecoderAcceptsOnlyEmittedFrames : Prop :=
  ∀ (p : Params) (bytes : List Byte) (i : Instr), decodeFrame p bytes = .ok i → i.wf = true ∧ encode p i = .frame bytes

/-- R123: encode's pseudocode. -/
def Obligations.EncodeFollowsItsPseudocode : Prop :=
  ∀ (op : Operation) (a : Addr),
    (op ∈ [Operation.readData, .pageProgram, .sectorErase, .block32Erase, .block64Erase] →
      (2 ^ 24 ≤ a.toNat → encodeOp op a = .error (.encoderAddressRange a)) ∧
      (a.toNat < 2 ^ 24 →
        encodeOp op a = .ok [opcode op, a.extractLsb' 16 8, a.extractLsb' 8 8, a.extractLsb' 0 8])) ∧
    (op ∉ [Operation.readData, .pageProgram, .sectorErase, .block32Erase, .block64Erase] →
      encodeOp op a = .ok [opcode op])

/-- The laws of the encoder: R138, which the spec derives from R123 and R124. -/
def Obligations.EncoderLawsHold : Prop :=
  (∀ (op : Operation) (a : Addr), a.toNat < 2 ^ 24 → op.takesAddress = true →
    ∃ b1 b2 b3 : Byte, encodeOp op a = .ok [opcode op, b1, b2, b3] ∧
      b1.toNat * 2 ^ 16 + b2.toNat * 2 ^ 8 + b3.toNat = a.toNat) ∧
  (∀ (op : Operation) (a : Addr), a.toNat < 2 ^ 24 → op.takesAddress = false → encodeOp op a = .ok [opcode op]) ∧
  (∀ (op op' : Operation) (a a' : Addr), a.toNat < 2 ^ 24 → a'.toNat < 2 ^ 24 → op.takesAddress = true →
    encodeOp op a = encodeOp op' a' → op = op' ∧ a = a') ∧
  (∀ (op op' : Operation) (a a' : Addr), a.toNat < 2 ^ 24 → a'.toNat < 2 ^ 24 → op.takesAddress = false →
    encodeOp op a = encodeOp op' a' → op = op') ∧
  (∀ (op : Operation) (a a' : Addr), op.takesAddress = false → encodeOp op a = encodeOp op a')

/-- R124: the binding opcode table, and that it is injective. -/
def Obligations.OpcodeTableIsBinding : Prop :=
  opcode .pageProgram = 0x02 ∧ opcode .readData = 0x03 ∧ opcode .readStatusRegister1 = 0x05 ∧ opcode .writeEnable = 0x06 ∧
  opcode .sectorErase = 0x20 ∧ opcode .uniqueId = 0x4B ∧ opcode .block32Erase = 0x52 ∧ opcode .block64Erase = 0xD8 ∧
  opcode .chipErase = 0xC7 ∧ opcode .enableReset = 0x66 ∧ opcode .powerDown = 0xB9 ∧ opcode .releasePowerDown = 0xAB ∧
  opcode .reset = 0x99 ∧ ∀ op op' : Operation, opcode op = opcode op' → op = op'

/-- R84, R87: the request codes, the reserved codes, and the pin codes in the SUSPENDING variant. -/
def Obligations.RequestCodesDecode : Prop :=
  ∀ (v : Variant) (a : Addr) (n : Nat) (d : List Byte) (l : Level),
    decodeRequest v ⟨0x0, a, n, d, l⟩ = .ok .capacity ∧ decodeRequest v ⟨0x1, a, n, d, l⟩ = .ok .model ∧
    decodeRequest v ⟨0x2, a, n, d, l⟩ = .ok (.read a n) ∧ decodeRequest v ⟨0x3, a, n, d, l⟩ = .ok (.program a d) ∧
    decodeRequest v ⟨0x4, a, n, d, l⟩ = .ok (.eraseSector a) ∧ decodeRequest v ⟨0x5, a, n, d, l⟩ = .ok (.eraseB32 a) ∧
    decodeRequest v ⟨0x6, a, n, d, l⟩ = .ok (.eraseB64 a) ∧ decodeRequest v ⟨0x7, a, n, d, l⟩ = .ok (.eraseChip a) ∧
    decodeRequest v ⟨0x8, a, n, d, l⟩ = .ok .uniqueId ∧ decodeRequest v ⟨0x9, a, n, d, l⟩ = .ok .powerDown ∧
    decodeRequest v ⟨0xA, a, n, d, l⟩ = .ok .releasePowerDown ∧ decodeRequest v ⟨0xB, a, n, d, l⟩ = .ok .reset ∧
    decodeRequest .blocking ⟨0xC, a, n, d, l⟩ = .ok (.setHold l) ∧ decodeRequest .blocking ⟨0xD, a, n, d, l⟩ = .ok (.setWp l) ∧
    decodeRequest .suspending ⟨0xC, a, n, d, l⟩ = .error .noPins ∧ decodeRequest .suspending ⟨0xD, a, n, d, l⟩ = .error .noPins ∧
    decodeRequest v ⟨0xE, a, n, d, l⟩ = .error .reservedCode ∧ decodeRequest v ⟨0xF, a, n, d, l⟩ = .error .reservedCode

/-- Words written out from the spec's own encodings (R125, R126, R129, R130, R132, R84) decode to what they stand for.
That the table word 0x2, which is a request code and an opcode, is read as the request is the model's choice, assumption 6; that frames
are decoded at all, assumption 16. -/
def Obligations.WordsOfTheSpecDecode : Prop :=
  decodeFrame Config.params [0x02, 0x00, 0x00, 0x10, 0xDE, 0xAD] = .ok (.txPageProgram 0x000010 [0xDE, 0xAD]) ∧
  decodeFrame Config.params [0x03, 0x12, 0x34, 0x56] = .ok (.txReadData 0x123456 0) ∧
  decodeFrame Config.params [0x20, 0x00, 0x10, 0x00] = .ok (.txSectorErase 0x001000) ∧
  decodeFrame Config.params [0x4B, 0, 0, 0, 0, 0, 0, 0, 0, 0, 0, 0, 0] = .ok .txUniqueId ∧
  decodeFrame Config.params [0xD8, 0x3F, 0x00, 0x00] = .ok (.txBlock64Erase 0x3F0000) ∧
  decodeFrame Config.params [0x9F] = .error (.unusedOpcode 0x9F) ∧
  decodeTableWord 8 0xC7 = some .txChipErase ∧ decodeTableWord 8 0x2 = some (.read 0 0) ∧ decodeTableWord 8 0xE = none

/-! ### Geometry -/

/-- The three instances of R104; the spec computes the rows of 8M and 16M from R101 and R102. -/
def Obligations.TheThreeGeometries : Prop :=
  (Config.geom4M.pageSize = 256 ∧ Config.geom4M.nPages = 16384 ∧ Config.geom4M.capacity = 4194304 ∧
    Config.geom4M.sectorSize = 4096 ∧ Config.geom4M.nSectors = 1024 ∧ Config.geom4M.block32KSize = 32768 ∧
    Config.geom4M.nBlocks32K = 128 ∧ Config.geom4M.block64KSize = 65536 ∧ Config.geom4M.nBlocks64K = 64) ∧
  (Config.geom8M.pageSize = 256 ∧ Config.geom8M.nPages = 32768 ∧ Config.geom8M.capacity = 8388608 ∧
    Config.geom8M.sectorSize = 4096 ∧ Config.geom8M.nSectors = 2048 ∧ Config.geom8M.block32KSize = 32768 ∧
    Config.geom8M.nBlocks32K = 256 ∧ Config.geom8M.block64KSize = 65536 ∧ Config.geom8M.nBlocks64K = 128) ∧
  (Config.geom16M.pageSize = 256 ∧ Config.geom16M.nPages = 65536 ∧ Config.geom16M.capacity = 16777216 ∧
    Config.geom16M.sectorSize = 4096 ∧ Config.geom16M.nSectors = 4096 ∧ Config.geom16M.block32KSize = 32768 ∧
    Config.geom16M.nBlocks32K = 512 ∧ Config.geom16M.block64KSize = 65536 ∧ Config.geom16M.nBlocks64K = 256)

/-- R105, R106, R107: the validator admits exactly the geometries that pass V1 to V4, a refusal names the first check that fails,
and no block is constructed over a refused geometry. That the three instances of R104
pass is what the spec derives from R104 (R106). -/
def Obligations.ValidatorNamesTheFirstFailedCheck : Prop :=
  (∀ g ∈ [Config.geom4M, Config.geom8M, Config.geom16M],
    (⟨g, none⟩ : GeometryDecl).validate = .ok g ∧ (⟨g, some g.capacity⟩ : GeometryDecl).validate = .ok g) ∧
  ∀ d : GeometryDecl,
    ((∃ c, d.capacityDecl = some c ∧ c ≠ d.geom.pageSize * d.geom.nPages) → d.validate = .error (.geometry .v1)) ∧
    ((∀ c, d.capacityDecl = some c → c = d.geom.pageSize * d.geom.nPages) →
      (d.geom.pageSize ≠ 256 → d.validate = .error (.geometry .v2)) ∧
      (d.geom.pageSize = 256 →
        (d.geom.nPages < 256 ∨ d.geom.nPages % 256 ≠ 0 → d.validate = .error (.geometry .v3)) ∧
        (256 ≤ d.geom.nPages → d.geom.nPages % 256 = 0 →
          (2 ^ 24 < d.geom.pageSize * d.geom.nPages → d.validate = .error (.geometry .v4)) ∧
          (d.geom.pageSize * d.geom.nPages ≤ 2 ^ 24 → d.validate = .ok d.geom)))) ∧
    (∀ k, d.validate = .error k → ∀ v b p hold wp, construct v d b p hold wp = .refused k)

/-- R110: what the spec derives from R101, R102 and R106 for every admitted geometry. -/
def Obligations.AdmittedGeometriesDivideExactly : Prop :=
  ∀ g : Geometry, g.admitted = true →
    g.nSectors * g.sectorSize = g.capacity ∧ g.nBlocks32K * g.block32KSize = g.capacity ∧
    g.nBlocks64K * g.block64KSize = g.capacity ∧
    (∀ gran size, g.gsize gran = some size → size ∣ g.capacity ∧ g.pageSize ∣ size) ∧ 65536 ≤ g.capacity

/-! ### Construction and reset -/

/-- R270: a BLOCKING construction over a geometry the validator admits. -/
def Obligations.BlockingConstructionDrivesBothPins : Prop :=
  ∀ (d : GeometryDecl) (g : Geometry) (b : Bool) (p : Params) (r : PinResult) (e : PinErr), d.validate = .ok g →
    construct .blocking d b p (.err e) r = .failed (.pinError e) [.pin .hold .high (.err e)] ∧
    construct .blocking d b p .ok (.err e) = .failed (.pinError e) [.pin .hold .high .ok, .pin .wp .high (.err e)] ∧
    ∃ s, construct .blocking d b p .ok .ok = .built s ∧ s.pins = some { hold := .high, wp := .high } ∧
      s.trace = [.pin .hold .high .ok, .pin .wp .high .ok]

/-- R272 (and R271 for the SUSPENDING variant): every field after a successful construction. The `env` and `refusals` fields are
the model's own (assumptions 1, 2 and 9). -/
def Obligations.ConstructedStateIsTheResetState : Prop :=
  ∀ (d : GeometryDecl) (g : Geometry) (b : Bool) (p : Params) (r r' : PinResult), d.validate = .ok g →
    (∃ s, construct .blocking d b p .ok .ok = .built s ∧ s.variant = .blocking ∧ s.geom = g ∧ s.verifyReadback = b ∧
      s.params = p ∧ s.phase = .idle ∧ s.req = none ∧ s.result = none ∧ s.pins = some { hold := .high, wp := .high } ∧
      s.faults = [] ∧ s.statusReads = 0 ∧ s.suspensions = 0 ∧ s.chipStateUnknown = false ∧
      s.trace = [.pin .hold .high .ok, .pin .wp .high .ok]) ∧
    (∃ s, construct .suspending d b p r r' = .built s ∧ s.variant = .suspending ∧ s.geom = g ∧ s.verifyReadback = b ∧
      s.params = p ∧ s.phase = .idle ∧ s.req = none ∧ s.result = none ∧ s.pins = none ∧
      s.faults = [] ∧ s.statusReads = 0 ∧ s.suspensions = 0 ∧ s.chipStateUnknown = false ∧ s.trace = [])

/-- The invariant holds after every construction, and of the model's reset state (whose configuration is the model's choice,
assumption 4). -/
def Obligations.InvariantHoldsAtReset : Prop :=
  (∀ v g b p, g.admitted = true → (State.constructed v g b p).Inv) ∧ State.reset.Inv

/-! ### External actions -/

/-- R34, R55, R27: one transaction, and one pin write, appends its event with its answer to the trace and uses up the answer; nothing
else of the state changes. (The answers lined up in `env` are the model's form of the free inputs of R56, assumption 1.) -/
def Obligations.AnExternalActionIsRecorded : Prop :=
  ∀ (s : State) (out : List Byte) (p : Pin) (l : Level),
    s.afterXfer out = { s with
      trace := s.trace ++ [.tx out s.xferAnswer]
      env := { s.env with xferIn := s.env.xferIn.tail, xferCount := s.env.xferCount + 1 } } ∧
    s.afterPin p l = { s with
      trace := s.trace ++ [.pin p l s.pinAnswer]
      env := { s.env with pinIn := s.env.pinIn.tail, pinCount := s.env.pinCount + 1 } } ∧
    (∀ r rs, s.env.xferIn = r :: rs → s.xferAnswer = r) ∧ (∀ r rs, s.env.pinIn = r :: rs → s.pinAnswer = r)

/-! ### The requests -/

/-- R168 and R169: capacity and model complete without a transaction. -/
def Obligations.CapacityAndModelComplete : Prop :=
  ∀ s : State, s.phase = .idle →
    exec .capacity s = .next { s with
      phase := .complete, req := some .capacity, suspensions := 0,
      result := some (.capacity (s.geom.pageSize * s.geom.nPages)) } ∧
    exec .model s = .next { s with
      phase := .complete, req := some .model, suspensions := 0, result := some (.geometry s.geom) }

/-- R170: read: the bound, the encoder's precondition, the transaction and its two outcomes. -/
def Obligations.ReadFollowsItsRule : Prop :=
  ∀ (s : State) (a : Addr) (n : Nat), s.phase = .idle →
    (s.geom.pageSize * s.geom.nPages < a.toNat + n →
      exec (.read a n) s = .next { s with phase := .failed .outOfBounds, req := some (.read a n), suspensions := 0 }) ∧
    (a.toNat + n ≤ s.geom.pageSize * s.geom.nPages →
      (2 ^ 24 ≤ a.toNat → exec (.read a n) s = .next { s with
        phase := .faulted, req := some (.read a n), suspensions := 0
        faults := if .encoderAddressRange a ∈ s.faults then s.faults else s.faults ++ [.encoderAddressRange a] }) ∧
      (a.toNat < 2 ^ 24 →
        (∀ received, s.xferAnswer = .ok received → received.length = 4 + n →
          exec (.read a n) s = .next { s.afterXfer (0x03 :: addrBytes a ++ List.replicate n s.params.fillByte) with
            phase := .complete, req := some (.read a n), suspensions := 0
            result := some (.bytes ((received.drop 4).take n)) }) ∧
        (∀ e, s.xferAnswer = .err e →
          exec (.read a n) s = .next { s.afterXfer (0x03 :: addrBytes a ++ List.replicate n s.params.fillByte) with
            phase := .failed (.transportError e), req := some (.read a n), suspensions := 0 })))

/-- R172, the checks P1, P2, P3 in their order: a program that fails one makes no transaction. -/
def Obligations.ProgramChecksComeBeforeTraffic : Prop :=
  ∀ (s : State) (a : Addr) (d : List Byte), s.phase = .idle →
    (s.geom.pageSize < a.toNat % s.geom.pageSize + d.length →
      exec (.program a d) s = .next { s with
        phase := .failed (match if s.geom.pageSize < d.length then s.params.boundaryTooLong else s.params.boundaryCrossing with
          | .notAligned => .notAligned
          | .outOfBounds => .outOfBounds)
        req := some (.program a d), suspensions := 0 }) ∧
    (a.toNat % s.geom.pageSize + d.length ≤ s.geom.pageSize →
      (s.params.programChecksCapacity = true → s.geom.pageSize * s.geom.nPages < a.toNat + d.length →
        exec (.program a d) s = .next { s with
          phase := .failed .outOfBounds, req := some (.program a d), suspensions := 0 }) ∧
      ((s.params.programChecksCapacity = true → a.toNat + d.length ≤ s.geom.pageSize * s.geom.nPages) → 2 ^ 24 ≤ a.toNat →
        exec (.program a d) s = .next { s with
          phase := .faulted, req := some (.program a d), suspensions := 0
          faults := if .encoderAddressRange a ∈ s.faults then s.faults else s.faults ++ [.encoderAddressRange a] }))

/-- R175 to R178, the checks E1, E2, E3 in their order, for the three aligned granularities: an erase that fails one makes no
transaction. -/
def Obligations.EraseChecksComeBeforeTraffic : Prop :=
  ∀ (s : State) (a : Addr) (i : Instr) (g : Granularity) (size : Nat), s.phase = .idle →
    ((i = .eraseSector a ∧ g = .sector ∧ size = s.geom.pageSize * 16) ∨
      (i = .eraseB32 a ∧ g = .block32K ∧ size = s.geom.pageSize * 16 * 8) ∨
      (i = .eraseB64 a ∧ g = .block64K ∧ size = s.geom.pageSize * 16 * 8 * 2)) →
    (a.toNat % size ≠ 0 →
      exec i s = .next { s with phase := .failed .notAligned, req := some (.erase g a), suspensions := 0 }) ∧
    (a.toNat % size = 0 →
      (s.params.eraseChecksCapacity = true → s.geom.pageSize * s.geom.nPages ≤ a.toNat →
        exec i s = .next { s with phase := .failed .outOfBounds, req := some (.erase g a), suspensions := 0 }) ∧
      ((s.params.eraseChecksCapacity = true → a.toNat < s.geom.pageSize * s.geom.nPages) → 2 ^ 24 ≤ a.toNat →
        exec i s = .next { s with
          phase := .faulted, req := some (.erase g a), suspensions := 0
          faults := if .encoderAddressRange a ∈ s.faults then s.faults else s.faults ++ [.encoderAddressRange a] }))

/-- R156: a program or an erase whose checks pass issues WriteEnable; on Ok the phase becomes WriteEnableSent. A chip erase has no
checks (R179): its address is neither aligned nor bounded. -/
def Obligations.DestructiveRequestsIssueWriteEnable : Prop :=
  ∀ (s : State) (a : Addr) (d : List Byte) (i : Instr) (r : Request), s.phase = .idle →
    ((i = .program a d ∧ r = .program a d ∧ a.toNat % s.geom.pageSize + d.length ≤ s.geom.pageSize ∧
        (s.params.programChecksCapacity = true → a.toNat + d.length ≤ s.geom.pageSize * s.geom.nPages) ∧
        a.toNat < 2 ^ 24) ∨
      (i = .eraseSector a ∧ r = .erase .sector a ∧ a.toNat % (s.geom.pageSize * 16) = 0 ∧
        (s.params.eraseChecksCapacity = true → a.toNat < s.geom.pageSize * s.geom.nPages) ∧ a.toNat < 2 ^ 24) ∨
      (i = .eraseB32 a ∧ r = .erase .block32K a ∧ a.toNat % (s.geom.pageSize * 16 * 8) = 0 ∧
        (s.params.eraseChecksCapacity = true → a.toNat < s.geom.pageSize * s.geom.nPages) ∧ a.toNat < 2 ^ 24) ∨
      (i = .eraseB64 a ∧ r = .erase .block64K a ∧ a.toNat % (s.geom.pageSize * 16 * 8 * 2) = 0 ∧
        (s.params.eraseChecksCapacity = true → a.toNat < s.geom.pageSize * s.geom.nPages) ∧ a.toNat < 2 ^ 24) ∨
      (i = .eraseChip a ∧ r = .erase .chip a)) →
    (∀ received, s.xferAnswer = .ok received → received.length = 1 →
      exec i s = .next { s.afterXfer [0x06] with phase := .writeEnableSent, req := some r, suspensions := 0 }) ∧
    (∀ e, s.xferAnswer = .err e →
      exec i s = .next { s.afterXfer [0x06] with
        phase := .failed (.transportError e), req := some r, suspensions := 0 })

/-- R181, R182, R183: unique_id, power_down and release_power_down: one transaction each and its two outcomes. -/
def Obligations.IdentifierAndPowerRequests : Prop :=
  ∀ s : State, s.phase = .idle →
    (∀ received, s.xferAnswer = .ok received → received.length = 5 + s.params.uidLen →
      exec .uniqueId s = .next { s.afterXfer (0x4B :: List.replicate (4 + s.params.uidLen) s.params.fillByte) with
        phase := .complete, req := some .uniqueId, suspensions := 0
        result := some (.bytes ((received.drop 5).take s.params.uidLen)) }) ∧
    (∀ received, s.xferAnswer = .ok received → received.length = 1 →
      exec .powerDown s = .next { s.afterXfer [0xB9] with
        phase := .complete, req := some .powerDown, suspensions := 0, result := some .nothing } ∧
      exec .releasePowerDown s = .next { s.afterXfer [0xAB] with
        phase := .complete, req := some .releasePowerDown, suspensions := 0, result := some .nothing }) ∧
    (∀ e, s.xferAnswer = .err e →
      exec .uniqueId s = .next { s.afterXfer (0x4B :: List.replicate (4 + s.params.uidLen) s.params.fillByte) with
        phase := .failed (.transportError e), req := some .uniqueId, suspensions := 0 } ∧
      exec .powerDown s = .next { s.afterXfer [0xB9] with
        phase := .failed (.transportError e), req := some .powerDown, suspensions := 0 } ∧
      exec .releasePowerDown s = .next { s.afterXfer [0xAB] with
        phase := .failed (.transportError e), req := some .releasePowerDown, suspensions := 0 })

/-- R184: reset sends EnableReset, then Reset, each its own transaction; Reset is not sent after an error on the first. -/
def Obligations.ResetSendsThePair : Prop :=
  ∀ s : State,
    (s.phase = .idle →
      (∀ received, s.xferAnswer = .ok received → received.length = 1 →
        exec .reset s = .next { s.afterXfer [0x66] with phase := .resetEnableSent, req := some .reset, suspensions := 0 }) ∧
      (∀ e, s.xferAnswer = .err e →
        exec .reset s = .next { s.afterXfer [0x66] with
          phase := .failed (.transportError e), req := some .reset, suspensions := 0 })) ∧
    (s.phase = .resetEnableSent → s.req = some .reset → s.env.port = none →
      (∀ received, s.xferAnswer = .ok received → received.length = 1 →
        step s = .next { s.afterXfer [0x99] with phase := .complete, result := some .nothing } ∧
        exec .txReset s = .next { s.afterXfer [0x99] with phase := .complete, result := some .nothing }) ∧
      (∀ e, s.xferAnswer = .err e →
        step s = .next { s.afterXfer [0x99] with phase := .failed (.transportError e) }))

/-- R185, R186: set_hold and set_wp in the BLOCKING variant. -/
def Obligations.PinRequestsDriveTheirPin : Prop :=
  ∀ (s : State) (l : Level) (q : PinLevels), s.phase = .idle → s.variant = .blocking → s.pins = some q →
    (s.pinAnswer = .ok →
      exec (.setHold l) s = .next { s.afterPin .hold l with
        phase := .complete, req := some (.setHold l), suspensions := 0, result := some .nothing
        pins := some { q with hold := match l with | .low => .low | .high => .high } } ∧
      exec (.setWp l) s = .next { s.afterPin .wp l with
        phase := .complete, req := some (.setWp l), suspensions := 0, result := some .nothing
        pins := some { q with wp := match l with | .low => .low | .high => .high } }) ∧
    (∀ e, s.pinAnswer = .err e →
      exec (.setHold l) s = .next { s.afterPin .hold l with
        phase := .failed (.pinError e), req := some (.setHold l), suspensions := 0
        pins := some { q with hold := .unknown } } ∧
      exec (.setWp l) s = .next { s.afterPin .wp l with
        phase := .failed (.pinError e), req := some (.setWp l), suspensions := 0
        pins := some { q with wp := .unknown } })

/-- R87, R241: what spells nothing changes nothing of the block: the presented input leaves the port and the refusal is marked. In the
SUSPENDING variant set_hold and set_wp are refused so. (The mark's place is the model's, assumption 9.) -/
def Obligations.RefusalsChangeNothingButTheMark : Prop :=
  (∀ (s : State) (x : HostInput) (k : Refused), s.phase = .idle → s.req = none → decodeInput s.variant x = .error k →
    (s.env.port = some x →
      step s = .next { s with env := { s.env with port := none }, refusals := s.refusals ++ [k] }) ∧
    (∀ q, s.env.port = none → s.env.hostQueue = x :: q →
      step s = .next { s with env := { s.env with hostQueue := q }, refusals := s.refusals ++ [k] })) ∧
  (∀ (s : State) (l : Level), s.phase = .idle → s.variant = .suspending →
    exec (.setHold l) s = .next { s with refusals := s.refusals ++ [.noPins] } ∧
    exec (.setWp l) s = .next { s with refusals := s.refusals ++ [.noPins] })

/-! ### The command frames -/

/-- R150: the frames of the rows at Idle, sent for a latched request whose checks have passed: what their Ok does. (A block stands
here only inside an accept step, assumption 5.) -/
def Obligations.FirstFramesComplete : Prop :=
  ∀ (s : State) (r : Request), s.phase = .idle → s.req = some r →
    (∀ received, s.xferAnswer = .ok received → received.length = 1 →
      (r.destructive = true → exec .txWriteEnable s = .next { s.afterXfer [0x06] with phase := .writeEnableSent }) ∧
      (r = .reset → exec .txEnableReset s = .next { s.afterXfer [0x66] with phase := .resetEnableSent }) ∧
      (r = .powerDown →
        exec .txPowerDown s = .next { s.afterXfer [0xB9] with phase := .complete, result := some .nothing }) ∧
      (r = .releasePowerDown →
        exec .txReleasePowerDown s = .next { s.afterXfer [0xAB] with phase := .complete, result := some .nothing })) ∧
    (∀ received, s.xferAnswer = .ok received → received.length = 5 + s.params.uidLen → r = .uniqueId →
      exec .txUniqueId s = .next { s.afterXfer (0x4B :: List.replicate (4 + s.params.uidLen) s.params.fillByte) with
        phase := .complete, result := some (.bytes ((received.drop 5).take s.params.uidLen)) }) ∧
    (∀ a n received, s.xferAnswer = .ok received → received.length = 4 + n → r = .read a n → a.toNat < 2 ^ 24 →
      exec (.txReadData a n) s = .next { s.afterXfer (0x03 :: addrBytes a ++ List.replicate n s.params.fillByte) with
        phase := .complete, result := some (.bytes ((received.drop 4).take n)) })

/-- R157: the write-enable confirmation is the step from WriteEnableSent: one status read, the bit WEL_BIT of SR1 alone decides, and
it is not counted in `status_reads`. -/
def Obligations.ConfirmationTestsTheLatch : Prop :=
  ∀ (s : State) (r : Request), s.phase = .writeEnableSent → s.req = some r → r.destructive = true →
    (s.env.port = none → step s = exec .txReadStatusRegister1 s) ∧
    (∀ b0 sr, s.xferAnswer = .ok [b0, sr] →
      (sr.getLsbD s.params.welBit = true →
        exec .txReadStatusRegister1 s = .next { s.afterXfer [0x05, s.params.fillByte] with phase := .confirmed }) ∧
      (sr.getLsbD s.params.welBit = false →
        exec .txReadStatusRegister1 s = .next { s.afterXfer [0x05, s.params.fillByte] with
          phase := .failed .writeEnableFail })) ∧
    (∀ e, s.xferAnswer = .err e →
      exec .txReadStatusRegister1 s = .next { s.afterXfer [0x05, s.params.fillByte] with
        phase := .failed (.transportError e) })

/-- R158, R159: the step from Confirmed is the command transaction, for each of the five destructive commands. -/
def Obligations.CommandIsOneTransaction : Prop :=
  ∀ (s : State) (a : Addr) (d : List Byte) (i : Instr) (out : List Byte), s.phase = .confirmed →
    ((i = .txPageProgram a d ∧ s.req = some (.program a d) ∧ a.toNat < 2 ^ 24 ∧ out = 0x02 :: addrBytes a ++ d) ∨
      (i = .txSectorErase a ∧ s.req = some (.erase .sector a) ∧ a.toNat < 2 ^ 24 ∧ out = 0x20 :: addrBytes a) ∨
      (i = .txBlock32Erase a ∧ s.req = some (.erase .block32K a) ∧ a.toNat < 2 ^ 24 ∧ out = 0x52 :: addrBytes a) ∨
      (i = .txBlock64Erase a ∧ s.req = some (.erase .block64K a) ∧ a.toNat < 2 ^ 24 ∧ out = 0xD8 :: addrBytes a) ∨
      (i = .txChipErase ∧ s.req = some (.erase .chip a) ∧ out = [0xC7])) →
    (s.env.port = none → step s = exec i s) ∧
    ∀ received, s.xferAnswer = .ok received → received.length = out.length →
      exec i s = .next { s.afterXfer out with phase := .commandIssued, statusReads := 0 }

/-- R161 (with R201 for the SUSPENDING variant's rows): the step from CommandIssued, and a BLOCKING step from PollingBusy, is a status
read; it is counted and branches on BUSY; a program with readback goes on to Verifying, everything else completes; an Err fails and
leaves the chip unknown. -/
def Obligations.PollReadBranchesOnBusy : Prop :=
  ∀ (s : State) (r : Request), s.req = some r → r.destructive = true →
    (s.phase = .commandIssued ∨ (s.phase = .pollingBusy ∧ s.variant = .blocking) ∨
      (s.phase = .suspended ∧ s.variant = .suspending)) →
    (s.phase ≠ .suspended → s.env.port = none → step s = exec .txReadStatusRegister1 s) ∧
    (∀ b0 sr, s.xferAnswer = .ok [b0, sr] →
      (sr.getLsbD 0 = true → exec .txReadStatusRegister1 s = .next { s.afterXfer [0x05, s.params.fillByte] with
        phase := .pollingBusy, statusReads := s.statusReads + 1 }) ∧
      (sr.getLsbD 0 = false →
        ((∃ a d, r = .program a d) → s.verifyReadback = true →
          exec .txReadStatusRegister1 s = .next { s.afterXfer [0x05, s.params.fillByte] with
            phase := .verifying, statusReads := s.statusReads + 1 }) ∧
        (((∃ g a, r = .erase g a) ∨ s.verifyReadback = false) →
          exec .txReadStatusRegister1 s = .next { s.afterXfer [0x05, s.params.fillByte] with
            phase := .complete, result := some .nothing, statusReads := s.statusReads + 1 }))) ∧
    (∀ e, s.xferAnswer = .err e →
      exec .txReadStatusRegister1 s = .next { s.afterXfer [0x05, s.params.fillByte] with
        phase := .failed (.transportError e), statusReads := s.statusReads + 1, chipStateUnknown := true })

/-- R163: the step from Verifying is the readback, and its comparison decides. (That Verifying is entered only with readback
verification on is `PollReadBranchesOnBusy`.) -/
def Obligations.ReadbackIsCompared : Prop :=
  ∀ (s : State) (a : Addr) (d received : List Byte), s.phase = .verifying → s.req = some (.program a d) →
    a.toNat < 2 ^ 24 → s.xferAnswer = .ok received → received.length = 4 + d.length →
    (s.env.port = none → step s = exec (.txReadData a d.length) s) ∧
    ((received.drop 4).take d.length = d →
      exec (.txReadData a d.length) s =
        .next { s.afterXfer (0x03 :: addrBytes a ++ List.replicate d.length s.params.fillByte) with
          phase := .complete, result := some .nothing }) ∧
    ((received.drop 4).take d.length ≠ d →
      exec (.txReadData a d.length) s =
        .next { s.afterXfer (0x03 :: addrBytes a ++ List.replicate d.length s.params.fillByte) with
          phase := .failed .readbackFail })

/-- R155 with R33: a transport error at any frame, wherever the tables select it, goes to Failed(TransportError(e)); the chip's state
becomes unknown exactly from the command transaction on; the next step of the request is the response. -/
def Obligations.TransportErrorAborts : Prop :=
  (∀ (s : State) (i : Instr) (e : TransportErr), s.phase ≠ .faulted → s.selected = some i → i.wf = true →
    s.xferAnswer = .err e →
    ∃ out, encode s.params i = .frame out ∧
      exec i s = .next { s.afterXfer out with
        phase := .failed (.transportError e)
        chipStateUnknown := s.chipStateUnknown || s.phase.afterCommand
        statusReads := if s.phase = .commandIssued ∨ s.phase = .pollingBusy ∨ s.phase = .suspended then s.statusReads + 1
          else s.statusReads }) ∧
  (∀ (s : State) (e : TransportErr), s.phase = .failed (.transportError e) → s.env.port = none →
    step s = .next { s with
      trace := s.trace ++ [.respond (.err (.transportError e) .other)], req := none, result := none, phase := .idle })

/-- R55, R240: a response of another length than the frame is the fault TransportContract, at every frame. The transaction is in the
trace (R34), and one of the poll is counted (R33, R161): that these rules make no exception of it is deduced, assumption 13. -/
def Obligations.WrongResponseLengthFaults : Prop :=
  ∀ (s : State) (i : Instr) (out received : List Byte), s.phase ≠ .faulted → s.selected = some i → i.wf = true →
    encode s.params i = .frame out → s.xferAnswer = .ok received → received.length ≠ out.length →
    exec i s = .next { s.afterXfer out with
      phase := .faulted
      statusReads := if s.phase = .commandIssued ∨ s.phase = .pollingBusy ∨ s.phase = .suspended then s.statusReads + 1
        else s.statusReads
      faults := if .transportContract ∈ s.faults then s.faults else s.faults ++ [.transportContract] }

/-- R24, R150, R70: a frame is sent nowhere but where the tables select it (no step exists elsewhere; the name of the stop is the
model's, assumption 10), and where they select one whose address does not fit, no transaction is made: the encoder's fault (R121). -/
def Obligations.FramesAreSentOnlyWhereSelected : Prop :=
  (∀ (s : State) (i : Instr), i.request? = none → s.phase ≠ .faulted → s.selected ≠ some i →
    exec i s = .refused .noSuchStep) ∧
  (∀ (s : State) (i : Instr) (a : Addr), s.phase ≠ .faulted → s.selected = some i → 2 ^ 24 ≤ a.toNat →
    ((∃ d, i = .txPageProgram a d) ∨ (∃ n, i = .txReadData a n) ∨ i = .txSectorErase a ∨ i = .txBlock32Erase a ∨
      i = .txBlock64Erase a) →
    exec i s = .next { s with
      phase := .faulted
      faults := if .encoderAddressRange a ∈ s.faults then s.faults else s.faults ++ [.encoderAddressRange a] })

/-! ### The step -/

/-- A step runs the decoded instruction: at Idle the presented request (R151), taken from the port or, with the port empty, from the
serial host's queue; elsewhere the frame the tables select (R24, R150); a Resume is recorded before its status read (R201). That requests
stand at a port and in a queue, and that the port comes first, is the model's choice, assumption 2; an Idle block with a latched request
is a point inside the accept step, assumption 5. -/
def Obligations.StepRunsTheDecodedInstruction : Prop :=
  (∀ (s : State) (x : HostInput) (i : Instr), s.phase = .idle → s.req = none → decodeInput s.variant x = .ok i →
    (s.env.port = some x → step s = exec i { s with env := { s.env with port := none } }) ∧
    (∀ q, s.env.port = none → s.env.hostQueue = x :: q → step s = exec i { s with env := { s.env with hostQueue := q } })) ∧
  (∀ (s : State) (i : Instr), s.selected = some i → (s.phase = .idle ∨ s.env.port = none) → s.phase ≠ .suspended →
    step s = exec i s) ∧
  (∀ (s : State) (i : Instr) (q : List SchedInput), s.selected = some i → s.phase = .suspended → s.env.port = none →
    s.env.schedIn = .resume :: q →
    step s = exec i { s with trace := s.trace ++ [.resumed], env := { s.env with schedIn := q } })

/-- The host's word placed as the next instruction is run by the very next step (assumption 5): a request after it has left the port, a
frame as it stands. -/
def Obligations.APlacedWordRunsNext : Prop :=
  ∀ (s : State) (nbits w : Nat) (i : Instr), decodeTableWord nbits w = some i →
    (i.request? = none → step (s.withFetchWord nbits w) = exec i (s.withFetchWord nbits w)) ∧
    (i.request? ≠ none → (s.variant = .suspending → i.usesPin = false) →
      step (s.withFetchWord nbits w) =
        exec i { s with phase := .idle, req := none, env := { s.env with port := none } })

/-- R154: the respond step from Complete and from Failed, and that after a failure the next request is served as any other. -/
def Obligations.RespondReturnsToIdle : Prop :=
  ∀ s : State, s.env.port = none →
    (∀ p, s.phase = .complete → s.result = some p →
      step s = .next { s with trace := s.trace ++ [.respond (.ok p)], req := none, result := none, phase := .idle }) ∧
    (∀ e, s.phase = .failed e →
      step s = .next { s with
        trace := s.trace ++ [.respond (.err e e.generic)], req := none, result := none, phase := .idle }) ∧
    (∀ e x q i, s.phase = .failed e → s.env.hostQueue = x :: q → decodeInput s.variant x = .ok i →
      ∃ t, step s = .next t ∧ t.env = s.env ∧ step t = exec i { t with env := { t.env with hostQueue := q } })

/-- R232: the generic classification of the six error kinds, delivered beside the specific kind; and the numeric codes of R230. -/
def Obligations.ErrorsAreClassified : Prop :=
  ∀ (e : TransportErr) (f : PinErr),
    (BlockError.transportError e).code = 1 ∧ (BlockError.pinError f).code = 2 ∧ BlockError.notAligned.code = 3 ∧
    BlockError.outOfBounds.code = 4 ∧ BlockError.writeEnableFail.code = 5 ∧ BlockError.readbackFail.code = 6 ∧
    (BlockError.transportError e).generic = .other ∧ (BlockError.pinError f).generic = .other ∧
    BlockError.notAligned.generic = .notAligned ∧ BlockError.outOfBounds.generic = .outOfBounds ∧
    BlockError.writeEnableFail.generic = .other ∧ BlockError.readbackFail.generic = .other ∧
    ∀ (s : State) (k : BlockError), s.phase = .failed k → s.response = .err k k.generic

/-- R152, R243: a request presented in any phase but Idle records the fault ConcurrentUse; in Faulted there is no step (R240). That an
input at the port of a busy block is not decoded first, so that one that spells nothing is concurrent use too, and that it leaves the
port, is the model's choice, assumption 2; that the port comes before a Resume or Cancel delivered to a Suspended block, assumption 18. -/
def Obligations.ConcurrentUseFaults : Prop :=
  (∀ (s : State) (x : HostInput), s.phase ≠ .idle → s.phase ≠ .faulted → s.env.port = some x →
    step s = .next { s with
      phase := .faulted, env := { s.env with port := none }
      faults := if .concurrentUse ∈ s.faults then s.faults else s.faults ++ [.concurrentUse] }) ∧
  (∀ (s : State) (i : Instr), i.request? ≠ none → s.phase ≠ .idle → s.phase ≠ .faulted →
    exec i s = .next { s with
      phase := .faulted
      faults := if .concurrentUse ∈ s.faults then s.faults else s.faults ++ [.concurrentUse] }) ∧
  (∀ (s : State) (x : HostInput), s.phase = .faulted → s.env.port = some x → step s = .fault (.stopped s.faults))

/-- R240: a Faulted block performs no further step, and no instruction. -/
def Obligations.FaultedBlocksStop : Prop :=
  ∀ s : State, s.phase = .faulted →
    step s = .fault (.stopped s.faults) ∧ ∀ i, exec i s = .fault (.stopped s.faults)

/-- R201, R202: the yield of a SUSPENDING poll, and that a Suspended block waits while the scheduler delivers nothing (R208; that
waiting is a step which changes nothing is the model's choice, assumption 2). -/
def Obligations.SuspendingPollYields : Prop :=
  ∀ (s : State) (r : Request), s.variant = .suspending → s.req = some r → r.destructive = true → s.env.port = none →
    (s.phase = .pollingBusy →
      step s = .next { s with
        trace := s.trace ++ [.yielded], suspensions := s.suspensions + 1, phase := .suspended }) ∧
    (s.phase = .suspended → s.env.schedIn = [] → step s = .next s)

/-- R206: Cancel while Suspended; no step in any other phase records one. -/
def Obligations.CancelAbandonsTheRequest : Prop :=
  (∀ (s : State) (r : Request) (q : List SchedInput), s.variant = .suspending → s.phase = .suspended → s.req = some r →
    r.destructive = true → s.env.port = none → s.env.schedIn = .cancel :: q →
    step s = .next { s with
      trace := s.trace ++ [.cancelled], chipStateUnknown := true, req := none, phase := .idle
      env := { s.env with schedIn := q } }) ∧
  (∀ (s t : State) (events : List Event), step s = .next t → t.trace = s.trace ++ events → .cancelled ∈ events →
    s.phase = .suspended ∧ s.variant = .suspending)

/-! ### Rules of the whole block -/

/-- The invariant is kept by every step. -/
def Obligations.EveryStepKeepsTheInvariant : Prop :=
  ∀ s t : State, s.Inv → step s = .next t → t.Inv

/-- R23, R24, R240: a block in a state of the invariant always has a step, unless it is Faulted; no step of it is refused. Where the
spec has the block wait (R273, R202: Idle with nothing presented, Suspended with nothing delivered) the step is the model's step that
changes nothing, assumption 2. -/
def Obligations.SoundBlocksAlwaysStep : Prop :=
  ∀ s : State, s.Inv → s.phase ≠ .faulted → ∃ t, step s = .next t

/-- R22: no step changes the configuration. -/
def Obligations.ConfigurationIsReadOnly : Prop :=
  ∀ s t : State, step s = .next t →
    t.variant = s.variant ∧ t.geom = s.geom ∧ t.verifyReadback = s.verifyReadback ∧ t.params = s.params

/-- R35: a fault once recorded is never removed; and a state with a fault is no successful end: it is Faulted, and has no step. -/
def Obligations.FaultsAreSticky : Prop :=
  (∀ s t : State, step s = .next t → ∀ f ∈ s.faults, f ∈ t.faults) ∧
  (∀ s t : State, s.Inv → step s = .next t → s.faults = [] ∧ (t.faults ≠ [] → t.phase = .faulted)) ∧
  (∀ s : State, s.Inv → s.faults ≠ [] → s.phase = .faulted ∧ step s = .fault (.stopped s.faults))

/-- R151, R34, R60: a step appends its events to the trace and never removes one, and performs at most one external action. -/
def Obligations.AStepPerformsAtMostOneAction : Prop :=
  ∀ s t : State, step s = .next t →
    ∃ events : List Event, t.trace = s.trace ++ events ∧ (events.filter Event.isAction).length ≤ 1

/-- R157, R158 (and R278, which the spec derives from them): a destructive opcode is sent only by a step taken in the phase Confirmed; R156, R157: that phase is entered only
from WriteEnableSent, by a status read that showed the latch set, and that phase only by the WriteEnable transaction. -/
def Obligations.DestructiveOpcodesNeedTheLatch : Prop :=
  ∀ s t : State, step s = .next t →
    (∀ events e, t.trace = s.trace ++ events → e ∈ events → e.isDestructiveTx = true → s.phase = .confirmed) ∧
    (t.phase = .confirmed → s.phase = .writeEnableSent ∧
      ∃ b0 sr, sr.getLsbD s.params.welBit = true ∧
        t.trace = s.trace ++ [.tx [0x05, s.params.fillByte] (.ok [b0, sr])]) ∧
    (t.phase = .writeEnableSent → s.phase = .idle ∧
      ∃ received, t.trace = s.trace ++ [.tx [0x06] (.ok received)])

/-- R203: only the poll suspends: a step yields only from PollingBusy, in the SUSPENDING variant, and is then the only event of the
step. -/
def Obligations.OnlyThePollSuspends : Prop :=
  ∀ s t : State, step s = .next t → ∀ events, t.trace = s.trace ++ events → .yielded ∈ events →
    s.phase = .pollingBusy ∧ s.variant = .suspending ∧ events = [.yielded]

/-- R26, R207: a SUSPENDING block has no pins and never writes one, and never fails with a PinError. -/
def Obligations.SuspendingBlocksTouchNoPin : Prop :=
  ∀ s t : State, s.Inv → s.variant = .suspending → step s = .next t →
    t.pins = none ∧ t.phase.isPinFailure = false ∧
    ∀ events, t.trace = s.trace ++ events → ∀ e ∈ events, e.isPin = false

/-- R161, R163 (and R61, which the spec derives): a destructive request completes only by a status read that returned BUSY=0, or by a readback that matched. -/
def Obligations.DestructiveSuccessNeedsTheChip : Prop :=
  ∀ (s t : State) (r : Request), step s = .next t → t.phase = .complete → s.phase ≠ .complete → t.req = some r →
    r.destructive = true →
    (∃ before b0 sr, sr.getLsbD 0 = false ∧ t.trace = before ++ [.tx [0x05, s.params.fillByte] (.ok [b0, sr])] ∧
      (s.phase = .commandIssued ∨ s.phase = .pollingBusy ∨ s.phase = .suspended)) ∨
    (s.phase = .verifying ∧ ∃ a d readback, r = .program a d ∧ (readback.drop 4).take d.length = d ∧
      t.trace = s.trace ++ [readbackEvent s.params a d.length readback])

/-- R33, R237: chip_state_unknown is never cleared, and is set only by a Cancel or by a transport error from the command
transaction on. -/
def Obligations.ChipStateUnknownIsSetAsRuled : Prop :=
  ∀ s t : State, step s = .next t →
    (t.chipStateUnknown = true ↔
      s.chipStateUnknown = true ∨ t.trace = s.trace ++ [.cancelled] ∨
        (s.phase.afterCommand = true ∧ ∃ e, t.phase = .failed (.transportError e)))

/-- A request fails only with the kinds its rule lists: R231, which the spec derives from R168 to R186. -/
def Obligations.RequestsFailOnlyAsListed : Prop :=
  ∀ (s t : State) (e : BlockError), step s = .next t → t.phase = .failed e →
    ∃ r, t.req = some r ∧ canFail s.params r e = true

/-- R33: no transition's choice depends on the ghost fields: a step from a state and from the same state without them agree but for
those fields. -/
def Obligations.GhostFieldsDecideNothing : Prop :=
  ∀ s : State, eraseGhost (step s) = eraseGhost (step s.eraseGhost)

/-! ### Whole requests -/

/-- R162, which the spec derives from R161: a BLOCKING poll whose first k status reads return BUSY=1 and whose read k+1 returns BUSY=0 makes exactly k+1 status reads
and then ends: up to the last read it is still in the poll. -/
def Obligations.PollReadsOnceMoreThanBusy : Prop :=
  ∀ (s : State) (r : Request) (busyReads : List (Byte × Byte)) (c : Byte × Byte) (rest : List XferResult),
    s.variant = .blocking → s.phase = .commandIssued → s.req = some r → r.destructive = true → s.statusReads = 0 →
    s.env.port = none → (∀ b ∈ busyReads, b.2.getLsbD 0 = true) → c.2.getLsbD 0 = false →
    s.env.xferIn = busyReads.map statusAnswer ++ statusAnswer c :: rest →
    (∀ j ≤ busyReads.length, ∃ u, run j s = .next u ∧ u.statusReads = j ∧
      (u.phase = .commandIssued ∨ u.phase = .pollingBusy)) ∧
    ∃ t, run (busyReads.length + 1) s = .next t ∧ t.statusReads = busyReads.length + 1 ∧
      ((∃ a d, r = .program a d) → s.verifyReadback = true → t.phase = .verifying) ∧
      ((∃ g a, r = .erase g a) ∨ s.verifyReadback = false → t.phase = .complete) ∧
      t.req = s.req ∧ t.env.xferIn = rest ∧
      t.trace = s.trace ++ (busyReads.map (statusEvent s.params) ++ [statusEvent s.params c])

/-- R205, which the spec derives from R201 and R162: a SUSPENDING poll whose first k status reads return BUSY=1 makes k+1 status reads and k yields, each yield between two
status reads, if the scheduler resumes every yield; only a destructive request ever yields. -/
def Obligations.SuspendingPollYieldsOncePerBusyRead : Prop :=
  (∀ (s t : State) (events : List Event), step s = .next t → t.trace = s.trace ++ events → .yielded ∈ events →
    ∃ r, s.req = some r ∧ r.destructive = true) ∧
  ∀ (s : State) (r : Request) (busyReads : List (Byte × Byte)) (c : Byte × Byte) (rest : List XferResult)
    (sched : List SchedInput),
    s.variant = .suspending → s.phase = .commandIssued → s.req = some r → r.destructive = true → s.statusReads = 0 →
    s.suspensions = 0 → s.env.port = none → (∀ b ∈ busyReads, b.2.getLsbD 0 = true) → c.2.getLsbD 0 = false →
    s.env.xferIn = busyReads.map statusAnswer ++ statusAnswer c :: rest →
    s.env.schedIn = List.replicate busyReads.length .resume ++ sched →
    ∃ t, run (2 * busyReads.length + 1) s = .next t ∧ t.statusReads = busyReads.length + 1 ∧
      t.suspensions = busyReads.length ∧
      ((∃ a d, r = .program a d) → s.verifyReadback = true → t.phase = .verifying) ∧
      ((∃ g a, r = .erase g a) ∨ s.verifyReadback = false → t.phase = .complete) ∧
      t.env.schedIn = sched ∧
      t.trace = s.trace ++
        (busyReads.flatMap (fun b => [statusEvent s.params b, .yielded, .resumed]) ++ [statusEvent s.params c])

/-- R164: a BLOCKING poll in which every status read returns BUSY=1 never leaves the poll, however many steps it is given. -/
def Obligations.BusyChipHangsThePoll : Prop :=
  ∀ (n : Nat) (s : State) (r : Request),
    s.variant = .blocking → (s.phase = .commandIssued ∨ s.phase = .pollingBusy) → s.req = some r → r.destructive = true →
    s.env.port = none → n < s.env.xferIn.length →
    (∀ x ∈ s.env.xferIn, ∃ b, x = statusAnswer b ∧ b.2.getLsbD 0 = true) →
    ∃ t, run (n + 1) s = .next t ∧ t.phase = .pollingBusy ∧ t.req = some r ∧ t.statusReads = s.statusReads + n + 1

/-- R173, which the spec derives from R156 to R163: the whole trace of a successful program in the BLOCKING variant, from its acceptance to its response. -/
def Obligations.SuccessfulProgramTrace : Prop :=
  ∀ (s : State) (w : RequestWord) (q : List HostInput) (b0 : Byte) (c e : Byte × Byte) (command readback : List Byte)
    (busyReads : List (Byte × Byte)) (rest : List XferResult) (steps : Nat) (verification : List Event),
    s.variant = .blocking → s.phase = .idle → s.req = none → s.env.port = none → s.env.hostQueue = .record w :: q →
    w.code = 0x3 → requestVerdict s.geom s.params (.program w.addr w.data) = Verdict.pass →
    c.2.getLsbD s.params.welBit = true → command.length = 4 + w.data.length →
    (∀ b ∈ busyReads, b.2.getLsbD 0 = true) → e.2.getLsbD 0 = false →
    ((s.verifyReadback = false ∧ steps = 0 ∧ verification = [] ∧
        s.env.xferIn = .ok [b0] :: statusAnswer c :: .ok command :: (busyReads.map statusAnswer ++ statusAnswer e :: rest)) ∨
      (s.verifyReadback = true ∧ steps = 1 ∧
        verification = [readbackEvent s.params w.addr w.data.length readback] ∧
        readback.length = 4 + w.data.length ∧ (readback.drop 4).take w.data.length = w.data ∧
        s.env.xferIn = .ok [b0] :: statusAnswer c :: .ok command ::
          (busyReads.map statusAnswer ++ statusAnswer e :: .ok readback :: rest))) →
    ∃ t, run (3 + (busyReads.length + 1) + steps + 1) s = .next t ∧
      t.phase = .idle ∧ t.req = none ∧ t.faults = s.faults ∧ t.chipStateUnknown = s.chipStateUnknown ∧
      t.statusReads = busyReads.length + 1 ∧ t.env.hostQueue = q ∧ t.env.xferIn = rest ∧
      t.trace = s.trace ++
        (handshakeEvents s.params b0 c (0x02 :: addrBytes w.addr ++ w.data) command ++
          (busyReads.map (statusEvent s.params) ++ (statusEvent s.params e :: verification ++ [.respond (.ok .nothing)])))

/-- R180, which the spec derives from R156 to R161 and R175: the whole trace of a successful erase in the BLOCKING variant, for each of the four granularities: there is no readback,
whatever verify_readback is. -/
def Obligations.SuccessfulEraseTrace : Prop :=
  ∀ (s : State) (w : RequestWord) (g : Granularity) (q : List HostInput) (b0 : Byte) (c e : Byte × Byte)
    (out command : List Byte) (busyReads : List (Byte × Byte)) (rest : List XferResult),
    s.variant = .blocking → s.phase = .idle → s.req = none → s.env.port = none → s.env.hostQueue = .record w :: q →
    ((w.code = 0x4 ∧ g = .sector ∧ out = 0x20 :: addrBytes w.addr) ∨
      (w.code = 0x5 ∧ g = .block32K ∧ out = 0x52 :: addrBytes w.addr) ∨
      (w.code = 0x6 ∧ g = .block64K ∧ out = 0xD8 :: addrBytes w.addr) ∨
      (w.code = 0x7 ∧ g = .chip ∧ out = [0xC7])) →
    requestVerdict s.geom s.params (.erase g w.addr) = Verdict.pass →
    c.2.getLsbD s.params.welBit = true → command.length = out.length →
    (∀ b ∈ busyReads, b.2.getLsbD 0 = true) → e.2.getLsbD 0 = false →
    s.env.xferIn = .ok [b0] :: statusAnswer c :: .ok command :: (busyReads.map statusAnswer ++ statusAnswer e :: rest) →
    ∃ t, run (3 + (busyReads.length + 1) + 1) s = .next t ∧
      t.phase = .idle ∧ t.req = none ∧ t.faults = s.faults ∧ t.chipStateUnknown = s.chipStateUnknown ∧
      t.statusReads = busyReads.length + 1 ∧ t.env.hostQueue = q ∧ t.env.xferIn = rest ∧
      t.trace = s.trace ++
        (handshakeEvents s.params b0 c out command ++
          (busyReads.map (statusEvent s.params) ++ [statusEvent s.params e, .respond (.ok .nothing)]))

/-! ### The reference chip (20_memory.md R64 to R66: for tests only, not part of the block) -/

/-- R64, R65 (general knowledge, assumption 11): the reference chip's array stays in its canonical form, and a write or an erase changes exactly the bytes it names. -/
def Obligations.ReferenceArrayIsCanonical : Prop :=
  (∀ (m : List Host.Cell) (a : Nat) (b : Byte), Memory.wf m = true →
    Memory.wf (Memory.write m a b) = true ∧
    ∀ x, Memory.read (Memory.write m a b) x = if x = a then b else Memory.read m x) ∧
  (∀ (m : List Host.Cell) (lo n : Nat), Memory.wf m = true →
    Memory.wf (Memory.eraseRange m lo n) = true ∧
    ∀ x, Memory.read (Memory.eraseRange m lo n) x = if lo ≤ x ∧ x < lo + n then 0xFF else Memory.read m x) ∧
  (∀ (c : Chip) (out : List Byte), Memory.wf c.mem = true → Memory.wf (c.answer out).2.mem = true)

/-- R66, which the spec derives from R65 and R161: with the reference chip (general knowledge, assumption 11), a program or an erase started with K_BUSY = k makes the block's poll perform exactly k+1 status
reads: the BLOCKING poll, from the command transaction on. -/
def Obligations.ReferenceChipPollCount : Prop :=
  ∀ (rig : Rig) (r : Request), rig.block.variant = .blocking → rig.block.phase = .confirmed → rig.block.req = some r →
    r.destructive = true → (∀ i, commandFrame r = some i → i.wf = true) → rig.block.env.port = none →
    rig.chip.pd = false → rig.chip.wel = true → rig.chip.busyLeft = 0 →
    ∃ rig', Rig.run (1 + (rig.chip.kBusy + 1)) rig = some rig' ∧ rig'.block.statusReads = rig.chip.kBusy + 1 ∧
      ((∃ a d, r = .program a d) → rig.block.verifyReadback = true → rig'.block.phase = .verifying) ∧
      ((∃ g a, r = .erase g a) ∨ rig.block.verifyReadback = false → rig'.block.phase = .complete) ∧
      rig'.chip.busyLeft = 0 ∧ rig'.chip.wel = false
end

