-- ==== Sys2Proof/Laws/State.lean ====
section
/-!
SUPPORT. One lemma for each field and each named update of the state: what the update leaves in the field. No later proof
unfolds a record update.
-/

namespace Sys2Proof.Machine

/-! ### record -/

@[simp] theorem State.record_variant (e : Event) (s : State) : (State.record e s).variant = s.variant := rfl

@[simp] theorem State.record_geom (e : Event) (s : State) : (State.record e s).geom = s.geom := rfl

@[simp] theorem State.record_verifyReadback (e : Event) (s : State) : (State.record e s).verifyReadback = s.verifyReadback := rfl

@[simp] theorem State.record_params (e : Event) (s : State) : (State.record e s).params = s.params := rfl

@[simp] theorem State.record_phase (e : Event) (s : State) : (State.record e s).phase = s.phase := rfl

@[simp] theorem State.record_req (e : Event) (s : State) : (State.record e s).req = s.req := rfl

@[simp] theorem State.record_result (e : Event) (s : State) : (State.record e s).result = s.result := rfl

@[simp] theorem State.record_pins (e : Event) (s : State) : (State.record e s).pins = s.pins := rfl

@[simp] theorem State.record_faults (e : Event) (s : State) : (State.record e s).faults = s.faults := rfl

@[simp] theorem State.record_statusReads (e : Event) (s : State) : (State.record e s).statusReads = s.statusReads := rfl

@[simp] theorem State.record_suspensions (e : Event) (s : State) : (State.record e s).suspensions = s.suspensions := rfl

@[simp] theorem State.record_chipStateUnknown (e : Event) (s : State) : (State.record e s).chipStateUnknown = s.chipStateUnknown := rfl

@[simp] theorem State.record_trace (e : Event) (s : State) : (State.record e s).trace = s.trace ++ [e] := rfl

@[simp] theorem State.record_refusals (e : Event) (s : State) : (State.record e s).refusals = s.refusals := rfl

@[simp] theorem State.record_env (e : Event) (s : State) : (State.record e s).env = s.env := rfl

/-! ### goto -/

@[simp] theorem State.goto_variant (p : Phase) (s : State) : (State.goto p s).variant = s.variant := rfl

@[simp] theorem State.goto_geom (p : Phase) (s : State) : (State.goto p s).geom = s.geom := rfl

@[simp] theorem State.goto_verifyReadback (p : Phase) (s : State) : (State.goto p s).verifyReadback = s.verifyReadback := rfl

@[simp] theorem State.goto_params (p : Phase) (s : State) : (State.goto p s).params = s.params := rfl

@[simp] theorem State.goto_phase (p : Phase) (s : State) : (State.goto p s).phase = p := rfl

@[simp] theorem State.goto_req (p : Phase) (s : State) : (State.goto p s).req = s.req := rfl

@[simp] theorem State.goto_result (p : Phase) (s : State) : (State.goto p s).result = s.result := rfl

@[simp] theorem State.goto_pins (p : Phase) (s : State) : (State.goto p s).pins = s.pins := rfl

@[simp] theorem State.goto_faults (p : Phase) (s : State) : (State.goto p s).faults = s.faults := rfl

@[simp] theorem State.goto_statusReads (p : Phase) (s : State) : (State.goto p s).statusReads = s.statusReads := rfl

@[simp] theorem State.goto_suspensions (p : Phase) (s : State) : (State.goto p s).suspensions = s.suspensions := rfl

@[simp] theorem State.goto_chipStateUnknown (p : Phase) (s : State) : (State.goto p s).chipStateUnknown = s.chipStateUnknown := rfl

@[simp] theorem State.goto_trace (p : Phase) (s : State) : (State.goto p s).trace = s.trace := rfl

@[simp] theorem State.goto_refusals (p : Phase) (s : State) : (State.goto p s).refusals = s.refusals := rfl

@[simp] theorem State.goto_env (p : Phase) (s : State) : (State.goto p s).env = s.env := rfl

/-! ### finish -/

@[simp] theorem State.finish_variant (pl : Payload) (s : State) : (State.finish pl s).variant = s.variant := rfl

@[simp] theorem State.finish_geom (pl : Payload) (s : State) : (State.finish pl s).geom = s.geom := rfl

@[simp] theorem State.finish_verifyReadback (pl : Payload) (s : State) : (State.finish pl s).verifyReadback = s.verifyReadback := rfl

@[simp] theorem State.finish_params (pl : Payload) (s : State) : (State.finish pl s).params = s.params := rfl

@[simp] theorem State.finish_phase (pl : Payload) (s : State) : (State.finish pl s).phase = .complete := rfl

@[simp] theorem State.finish_req (pl : Payload) (s : State) : (State.finish pl s).req = s.req := rfl

@[simp] theorem State.finish_result (pl : Payload) (s : State) : (State.finish pl s).result = some pl := rfl

@[simp] theorem State.finish_pins (pl : Payload) (s : State) : (State.finish pl s).pins = s.pins := rfl

@[simp] theorem State.finish_faults (pl : Payload) (s : State) : (State.finish pl s).faults = s.faults := rfl

@[simp] theorem State.finish_statusReads (pl : Payload) (s : State) : (State.finish pl s).statusReads = s.statusReads := rfl

@[simp] theorem State.finish_suspensions (pl : Payload) (s : State) : (State.finish pl s).suspensions = s.suspensions := rfl

@[simp] theorem State.finish_chipStateUnknown (pl : Payload) (s : State) : (State.finish pl s).chipStateUnknown = s.chipStateUnknown := rfl

@[simp] theorem State.finish_trace (pl : Payload) (s : State) : (State.finish pl s).trace = s.trace := rfl

@[simp] theorem State.finish_refusals (pl : Payload) (s : State) : (State.finish pl s).refusals = s.refusals := rfl

@[simp] theorem State.finish_env (pl : Payload) (s : State) : (State.finish pl s).env = s.env := rfl

/-! ### latch -/

@[simp] theorem State.latch_variant (r : Request) (s : State) : (State.latch r s).variant = s.variant := rfl

@[simp] theorem State.latch_geom (r : Request) (s : State) : (State.latch r s).geom = s.geom := rfl

@[simp] theorem State.latch_verifyReadback (r : Request) (s : State) : (State.latch r s).verifyReadback = s.verifyReadback := rfl

@[simp] theorem State.latch_params (r : Request) (s : State) : (State.latch r s).params = s.params := rfl

@[simp] theorem State.latch_phase (r : Request) (s : State) : (State.latch r s).phase = s.phase := rfl

@[simp] theorem State.latch_req (r : Request) (s : State) : (State.latch r s).req = some r := rfl

@[simp] theorem State.latch_result (r : Request) (s : State) : (State.latch r s).result = s.result := rfl

@[simp] theorem State.latch_pins (r : Request) (s : State) : (State.latch r s).pins = s.pins := rfl

@[simp] theorem State.latch_faults (r : Request) (s : State) : (State.latch r s).faults = s.faults := rfl

@[simp] theorem State.latch_statusReads (r : Request) (s : State) : (State.latch r s).statusReads = s.statusReads := rfl

@[simp] theorem State.latch_suspensions (r : Request) (s : State) : (State.latch r s).suspensions = 0 := rfl

@[simp] theorem State.latch_chipStateUnknown (r : Request) (s : State) : (State.latch r s).chipStateUnknown = s.chipStateUnknown := rfl

@[simp] theorem State.latch_trace (r : Request) (s : State) : (State.latch r s).trace = s.trace := rfl

@[simp] theorem State.latch_refusals (r : Request) (s : State) : (State.latch r s).refusals = s.refusals := rfl

@[simp] theorem State.latch_env (r : Request) (s : State) : (State.latch r s).env = s.env := rfl

/-! ### countRead -/

@[simp] theorem State.countRead_variant (s : State) : (State.countRead s).variant = s.variant := rfl

@[simp] theorem State.countRead_geom (s : State) : (State.countRead s).geom = s.geom := rfl

@[simp] theorem State.countRead_verifyReadback (s : State) : (State.countRead s).verifyReadback = s.verifyReadback := rfl

@[simp] theorem State.countRead_params (s : State) : (State.countRead s).params = s.params := rfl

@[simp] theorem State.countRead_phase (s : State) : (State.countRead s).phase = s.phase := rfl

@[simp] theorem State.countRead_req (s : State) : (State.countRead s).req = s.req := rfl

@[simp] theorem State.countRead_result (s : State) : (State.countRead s).result = s.result := rfl

@[simp] theorem State.countRead_pins (s : State) : (State.countRead s).pins = s.pins := rfl

@[simp] theorem State.countRead_faults (s : State) : (State.countRead s).faults = s.faults := rfl

@[simp] theorem State.countRead_statusReads (s : State) : (State.countRead s).statusReads = s.statusReads + 1 := rfl

@[simp] theorem State.countRead_suspensions (s : State) : (State.countRead s).suspensions = s.suspensions := rfl

@[simp] theorem State.countRead_chipStateUnknown (s : State) : (State.countRead s).chipStateUnknown = s.chipStateUnknown := rfl

@[simp] theorem State.countRead_trace (s : State) : (State.countRead s).trace = s.trace := rfl

@[simp] theorem State.countRead_refusals (s : State) : (State.countRead s).refusals = s.refusals := rfl

@[simp] theorem State.countRead_env (s : State) : (State.countRead s).env = s.env := rfl

/-! ### markRefused -/

@[simp] theorem State.markRefused_variant (k : Refused) (s : State) : (State.markRefused k s).variant = s.variant := rfl

@[simp] theorem State.markRefused_geom (k : Refused) (s : State) : (State.markRefused k s).geom = s.geom := rfl

@[simp] theorem State.markRefused_verifyReadback (k : Refused) (s : State) : (State.markRefused k s).verifyReadback = s.verifyReadback := rfl

@[simp] theorem State.markRefused_params (k : Refused) (s : State) : (State.markRefused k s).params = s.params := rfl

@[simp] theorem State.markRefused_phase (k : Refused) (s : State) : (State.markRefused k s).phase = s.phase := rfl

@[simp] theorem State.markRefused_req (k : Refused) (s : State) : (State.markRefused k s).req = s.req := rfl

@[simp] theorem State.markRefused_result (k : Refused) (s : State) : (State.markRefused k s).result = s.result := rfl

@[simp] theorem State.markRefused_pins (k : Refused) (s : State) : (State.markRefused k s).pins = s.pins := rfl

@[simp] theorem State.markRefused_faults (k : Refused) (s : State) : (State.markRefused k s).faults = s.faults := rfl

@[simp] theorem State.markRefused_statusReads (k : Refused) (s : State) : (State.markRefused k s).statusReads = s.statusReads := rfl

@[simp] theorem State.markRefused_suspensions (k : Refused) (s : State) : (State.markRefused k s).suspensions = s.suspensions := rfl

@[simp] theorem State.markRefused_chipStateUnknown (k : Refused) (s : State) : (State.markRefused k s).chipStateUnknown = s.chipStateUnknown := rfl

@[simp] theorem State.markRefused_trace (k : Refused) (s : State) : (State.markRefused k s).trace = s.trace := rfl

@[simp] theorem State.markRefused_refusals (k : Refused) (s : State) : (State.markRefused k s).refusals = s.refusals ++ [k] := rfl

@[simp] theorem State.markRefused_env (k : Refused) (s : State) : (State.markRefused k s).env = s.env := rfl

/-! ### raise -/

@[simp] theorem State.raise_variant (e : BlockError) (s : State) : (State.raise e s).variant = s.variant := rfl

@[simp] theorem State.raise_geom (e : BlockError) (s : State) : (State.raise e s).geom = s.geom := rfl

@[simp] theorem State.raise_verifyReadback (e : BlockError) (s : State) : (State.raise e s).verifyReadback = s.verifyReadback := rfl

@[simp] theorem State.raise_params (e : BlockError) (s : State) : (State.raise e s).params = s.params := rfl

@[simp] theorem State.raise_phase (e : BlockError) (s : State) : (State.raise e s).phase = .failed e := rfl

@[simp] theorem State.raise_req (e : BlockError) (s : State) : (State.raise e s).req = s.req := rfl

@[simp] theorem State.raise_result (e : BlockError) (s : State) : (State.raise e s).result = s.result := rfl

@[simp] theorem State.raise_pins (e : BlockError) (s : State) : (State.raise e s).pins = s.pins := rfl

@[simp] theorem State.raise_faults (e : BlockError) (s : State) : (State.raise e s).faults = s.faults := rfl

@[simp] theorem State.raise_statusReads (e : BlockError) (s : State) : (State.raise e s).statusReads = s.statusReads := rfl

@[simp] theorem State.raise_suspensions (e : BlockError) (s : State) : (State.raise e s).suspensions = s.suspensions := rfl

@[simp] theorem State.raise_chipStateUnknown (e : BlockError) (s : State) : (State.raise e s).chipStateUnknown = s.chipStateUnknown := rfl

@[simp] theorem State.raise_trace (e : BlockError) (s : State) : (State.raise e s).trace = s.trace := rfl

@[simp] theorem State.raise_refusals (e : BlockError) (s : State) : (State.raise e s).refusals = s.refusals := rfl

@[simp] theorem State.raise_env (e : BlockError) (s : State) : (State.raise e s).env = s.env := rfl

/-! ### recordFault -/

@[simp] theorem State.recordFault_variant (f : ContractFault) (s : State) : (State.recordFault f s).variant = s.variant := rfl

@[simp] theorem State.recordFault_geom (f : ContractFault) (s : State) : (State.recordFault f s).geom = s.geom := rfl

@[simp] theorem State.recordFault_verifyReadback (f : ContractFault) (s : State) : (State.recordFault f s).verifyReadback = s.verifyReadback := rfl

@[simp] theorem State.recordFault_params (f : ContractFault) (s : State) : (State.recordFault f s).params = s.params := rfl

@[simp] theorem State.recordFault_phase (f : ContractFault) (s : State) : (State.recordFault f s).phase = .faulted := rfl

@[simp] theorem State.recordFault_req (f : ContractFault) (s : State) : (State.recordFault f s).req = s.req := rfl

@[simp] theorem State.recordFault_result (f : ContractFault) (s : State) : (State.recordFault f s).result = s.result := rfl

@[simp] theorem State.recordFault_pins (f : ContractFault) (s : State) : (State.recordFault f s).pins = s.pins := rfl

@[simp] theorem State.recordFault_faults (f : ContractFault) (s : State) : (State.recordFault f s).faults = if f ∈ s.faults then s.faults else s.faults ++ [f] := rfl

@[simp] theorem State.recordFault_statusReads (f : ContractFault) (s : State) : (State.recordFault f s).statusReads = s.statusReads := rfl

@[simp] theorem State.recordFault_suspensions (f : ContractFault) (s : State) : (State.recordFault f s).suspensions = s.suspensions := rfl

@[simp] theorem State.recordFault_chipStateUnknown (f : ContractFault) (s : State) : (State.recordFault f s).chipStateUnknown = s.chipStateUnknown := rfl

@[simp] theorem State.recordFault_trace (f : ContractFault) (s : State) : (State.recordFault f s).trace = s.trace := rfl

@[simp] theorem State.recordFault_refusals (f : ContractFault) (s : State) : (State.recordFault f s).refusals = s.refusals := rfl

@[simp] theorem State.recordFault_env (f : ContractFault) (s : State) : (State.recordFault f s).env = s.env := rfl

/-! ### failTransport -/

@[simp] theorem State.failTransport_variant (b : Bool) (e : TransportErr) (s : State) : (State.failTransport b e s).variant = s.variant := rfl

@[simp] theorem State.failTransport_geom (b : Bool) (e : TransportErr) (s : State) : (State.failTransport b e s).geom = s.geom := rfl

@[simp] theorem State.failTransport_verifyReadback (b : Bool) (e : TransportErr) (s : State) : (State.failTransport b e s).verifyReadback = s.verifyReadback := rfl

@[simp] theorem State.failTransport_params (b : Bool) (e : TransportErr) (s : State) : (State.failTransport b e s).params = s.params := rfl

@[simp] theorem State.failTransport_phase (b : Bool) (e : TransportErr) (s : State) : (State.failTransport b e s).phase = .failed (.transportError e) := rfl

@[simp] theorem State.failTransport_req (b : Bool) (e : TransportErr) (s : State) : (State.failTransport b e s).req = s.req := rfl

@[simp] theorem State.failTransport_result (b : Bool) (e : TransportErr) (s : State) : (State.failTransport b e s).result = s.result := rfl

@[simp] theorem State.failTransport_pins (b : Bool) (e : TransportErr) (s : State) : (State.failTransport b e s).pins = s.pins := rfl

@[simp] theorem State.failTransport_faults (b : Bool) (e : TransportErr) (s : State) : (State.failTransport b e s).faults = s.faults := rfl

@[simp] theorem State.failTransport_statusReads (b : Bool) (e : TransportErr) (s : State) : (State.failTransport b e s).statusReads = s.statusReads := rfl

@[simp] theorem State.failTransport_suspensions (b : Bool) (e : TransportErr) (s : State) : (State.failTransport b e s).suspensions = s.suspensions := rfl

@[simp] theorem State.failTransport_chipStateUnknown (b : Bool) (e : TransportErr) (s : State) : (State.failTransport b e s).chipStateUnknown = (s.chipStateUnknown || b) := rfl

@[simp] theorem State.failTransport_trace (b : Bool) (e : TransportErr) (s : State) : (State.failTransport b e s).trace = s.trace := rfl

@[simp] theorem State.failTransport_refusals (b : Bool) (e : TransportErr) (s : State) : (State.failTransport b e s).refusals = s.refusals := rfl

@[simp] theorem State.failTransport_env (b : Bool) (e : TransportErr) (s : State) : (State.failTransport b e s).env = s.env := rfl

/-! ### deliver -/

@[simp] theorem State.deliver_variant (s : State) : (State.deliver s).variant = s.variant := rfl

@[simp] theorem State.deliver_geom (s : State) : (State.deliver s).geom = s.geom := rfl

@[simp] theorem State.deliver_verifyReadback (s : State) : (State.deliver s).verifyReadback = s.verifyReadback := rfl

@[simp] theorem State.deliver_params (s : State) : (State.deliver s).params = s.params := rfl

@[simp] theorem State.deliver_phase (s : State) : (State.deliver s).phase = .idle := rfl

@[simp] theorem State.deliver_req (s : State) : (State.deliver s).req = none := rfl

@[simp] theorem State.deliver_result (s : State) : (State.deliver s).result = none := rfl

@[simp] theorem State.deliver_pins (s : State) : (State.deliver s).pins = s.pins := rfl

@[simp] theorem State.deliver_faults (s : State) : (State.deliver s).faults = s.faults := rfl

@[simp] theorem State.deliver_statusReads (s : State) : (State.deliver s).statusReads = s.statusReads := rfl

@[simp] theorem State.deliver_suspensions (s : State) : (State.deliver s).suspensions = s.suspensions := rfl

@[simp] theorem State.deliver_chipStateUnknown (s : State) : (State.deliver s).chipStateUnknown = s.chipStateUnknown := rfl

@[simp] theorem State.deliver_trace (s : State) : (State.deliver s).trace = s.trace ++ [.respond s.response] := rfl

@[simp] theorem State.deliver_refusals (s : State) : (State.deliver s).refusals = s.refusals := rfl

@[simp] theorem State.deliver_env (s : State) : (State.deliver s).env = s.env := rfl

/-! ### afterXfer -/

@[simp] theorem State.afterXfer_variant (out : List Byte) (s : State) : (State.afterXfer out s).variant = s.variant := rfl

@[simp] theorem State.afterXfer_geom (out : List Byte) (s : State) : (State.afterXfer out s).geom = s.geom := rfl

@[simp] theorem State.afterXfer_verifyReadback (out : List Byte) (s : State) : (State.afterXfer out s).verifyReadback = s.verifyReadback := rfl

@[simp] theorem State.afterXfer_params (out : List Byte) (s : State) : (State.afterXfer out s).params = s.params := rfl

@[simp] theorem State.afterXfer_phase (out : List Byte) (s : State) : (State.afterXfer out s).phase = s.phase := rfl

@[simp] theorem State.afterXfer_req (out : List Byte) (s : State) : (State.afterXfer out s).req = s.req := rfl

@[simp] theorem State.afterXfer_result (out : List Byte) (s : State) : (State.afterXfer out s).result = s.result := rfl

@[simp] theorem State.afterXfer_pins (out : List Byte) (s : State) : (State.afterXfer out s).pins = s.pins := rfl

@[simp] theorem State.afterXfer_faults (out : List Byte) (s : State) : (State.afterXfer out s).faults = s.faults := rfl

@[simp] theorem State.afterXfer_statusReads (out : List Byte) (s : State) : (State.afterXfer out s).statusReads = s.statusReads := rfl

@[simp] theorem State.afterXfer_suspensions (out : List Byte) (s : State) : (State.afterXfer out s).suspensions = s.suspensions := rfl

@[simp] theorem State.afterXfer_chipStateUnknown (out : List Byte) (s : State) : (State.afterXfer out s).chipStateUnknown = s.chipStateUnknown := rfl

@[simp] theorem State.afterXfer_trace (out : List Byte) (s : State) : (State.afterXfer out s).trace = s.trace ++ [.tx out s.xferAnswer] := rfl

@[simp] theorem State.afterXfer_refusals (out : List Byte) (s : State) : (State.afterXfer out s).refusals = s.refusals := rfl

@[simp] theorem State.afterXfer_env (out : List Byte) (s : State) : (State.afterXfer out s).env = { s.env with xferIn := s.env.xferIn.tail, xferCount := s.env.xferCount + 1 } := rfl

/-! ### afterPin -/

@[simp] theorem State.afterPin_variant (p : Pin) (l : Level) (s : State) : (State.afterPin p l s).variant = s.variant := rfl

@[simp] theorem State.afterPin_geom (p : Pin) (l : Level) (s : State) : (State.afterPin p l s).geom = s.geom := rfl

@[simp] theorem State.afterPin_verifyReadback (p : Pin) (l : Level) (s : State) : (State.afterPin p l s).verifyReadback = s.verifyReadback := rfl

@[simp] theorem State.afterPin_params (p : Pin) (l : Level) (s : State) : (State.afterPin p l s).params = s.params := rfl

@[simp] theorem State.afterPin_phase (p : Pin) (l : Level) (s : State) : (State.afterPin p l s).phase = s.phase := rfl

@[simp] theorem State.afterPin_req (p : Pin) (l : Level) (s : State) : (State.afterPin p l s).req = s.req := rfl

@[simp] theorem State.afterPin_result (p : Pin) (l : Level) (s : State) : (State.afterPin p l s).result = s.result := rfl

@[simp] theorem State.afterPin_pins (p : Pin) (l : Level) (s : State) : (State.afterPin p l s).pins = s.pins := rfl

@[simp] theorem State.afterPin_faults (p : Pin) (l : Level) (s : State) : (State.afterPin p l s).faults = s.faults := rfl

@[simp] theorem State.afterPin_statusReads (p : Pin) (l : Level) (s : State) : (State.afterPin p l s).statusReads = s.statusReads := rfl

@[simp] theorem State.afterPin_suspensions (p : Pin) (l : Level) (s : State) : (State.afterPin p l s).suspensions = s.suspensions := rfl

@[simp] theorem State.afterPin_chipStateUnknown (p : Pin) (l : Level) (s : State) : (State.afterPin p l s).chipStateUnknown = s.chipStateUnknown := rfl

@[simp] theorem State.afterPin_trace (p : Pin) (l : Level) (s : State) : (State.afterPin p l s).trace = s.trace ++ [.pin p l s.pinAnswer] := rfl

@[simp] theorem State.afterPin_refusals (p : Pin) (l : Level) (s : State) : (State.afterPin p l s).refusals = s.refusals := rfl

@[simp] theorem State.afterPin_env (p : Pin) (l : Level) (s : State) : (State.afterPin p l s).env = { s.env with pinIn := s.env.pinIn.tail, pinCount := s.env.pinCount + 1 } := rfl

/-! ### setLevel -/

@[simp] theorem State.setLevel_variant (p : Pin) (v : PinLevel) (s : State) : (State.setLevel p v s).variant = s.variant := rfl

@[simp] theorem State.setLevel_geom (p : Pin) (v : PinLevel) (s : State) : (State.setLevel p v s).geom = s.geom := rfl

@[simp] theorem State.setLevel_verifyReadback (p : Pin) (v : PinLevel) (s : State) : (State.setLevel p v s).verifyReadback = s.verifyReadback := rfl

@[simp] theorem State.setLevel_params (p : Pin) (v : PinLevel) (s : State) : (State.setLevel p v s).params = s.params := rfl

@[simp] theorem State.setLevel_phase (p : Pin) (v : PinLevel) (s : State) : (State.setLevel p v s).phase = s.phase := rfl

@[simp] theorem State.setLevel_req (p : Pin) (v : PinLevel) (s : State) : (State.setLevel p v s).req = s.req := rfl

@[simp] theorem State.setLevel_result (p : Pin) (v : PinLevel) (s : State) : (State.setLevel p v s).result = s.result := rfl

@[simp] theorem State.setLevel_faults (p : Pin) (v : PinLevel) (s : State) : (State.setLevel p v s).faults = s.faults := rfl

@[simp] theorem State.setLevel_statusReads (p : Pin) (v : PinLevel) (s : State) : (State.setLevel p v s).statusReads = s.statusReads := rfl

@[simp] theorem State.setLevel_suspensions (p : Pin) (v : PinLevel) (s : State) : (State.setLevel p v s).suspensions = s.suspensions := rfl

@[simp] theorem State.setLevel_chipStateUnknown (p : Pin) (v : PinLevel) (s : State) : (State.setLevel p v s).chipStateUnknown = s.chipStateUnknown := rfl

@[simp] theorem State.setLevel_trace (p : Pin) (v : PinLevel) (s : State) : (State.setLevel p v s).trace = s.trace := rfl

@[simp] theorem State.setLevel_refusals (p : Pin) (v : PinLevel) (s : State) : (State.setLevel p v s).refusals = s.refusals := rfl

@[simp] theorem State.setLevel_env (p : Pin) (v : PinLevel) (s : State) : (State.setLevel p v s).env = s.env := rfl

/-! ### yield -/

@[simp] theorem State.yield_variant (s : State) : (State.yield s).variant = s.variant := rfl

@[simp] theorem State.yield_geom (s : State) : (State.yield s).geom = s.geom := rfl

@[simp] theorem State.yield_verifyReadback (s : State) : (State.yield s).verifyReadback = s.verifyReadback := rfl

@[simp] theorem State.yield_params (s : State) : (State.yield s).params = s.params := rfl

@[simp] theorem State.yield_phase (s : State) : (State.yield s).phase = .suspended := rfl

@[simp] theorem State.yield_req (s : State) : (State.yield s).req = s.req := rfl

@[simp] theorem State.yield_result (s : State) : (State.yield s).result = s.result := rfl

@[simp] theorem State.yield_pins (s : State) : (State.yield s).pins = s.pins := rfl

@[simp] theorem State.yield_faults (s : State) : (State.yield s).faults = s.faults := rfl

@[simp] theorem State.yield_statusReads (s : State) : (State.yield s).statusReads = s.statusReads := rfl

@[simp] theorem State.yield_suspensions (s : State) : (State.yield s).suspensions = s.suspensions + 1 := rfl

@[simp] theorem State.yield_chipStateUnknown (s : State) : (State.yield s).chipStateUnknown = s.chipStateUnknown := rfl

@[simp] theorem State.yield_trace (s : State) : (State.yield s).trace = s.trace ++ [.yielded] := rfl

@[simp] theorem State.yield_refusals (s : State) : (State.yield s).refusals = s.refusals := rfl

@[simp] theorem State.yield_env (s : State) : (State.yield s).env = s.env := rfl

/-! ### resume -/

@[simp] theorem State.resume_variant (s : State) : (State.resume s).variant = s.variant := rfl

@[simp] theorem State.resume_geom (s : State) : (State.resume s).geom = s.geom := rfl

@[simp] theorem State.resume_verifyReadback (s : State) : (State.resume s).verifyReadback = s.verifyReadback := rfl

@[simp] theorem State.resume_params (s : State) : (State.resume s).params = s.params := rfl

@[simp] theorem State.resume_phase (s : State) : (State.resume s).phase = s.phase := rfl

@[simp] theorem State.resume_req (s : State) : (State.resume s).req = s.req := rfl

@[simp] theorem State.resume_result (s : State) : (State.resume s).result = s.result := rfl

@[simp] theorem State.resume_pins (s : State) : (State.resume s).pins = s.pins := rfl

@[simp] theorem State.resume_faults (s : State) : (State.resume s).faults = s.faults := rfl

@[simp] theorem State.resume_statusReads (s : State) : (State.resume s).statusReads = s.statusReads := rfl

@[simp] theorem State.resume_suspensions (s : State) : (State.resume s).suspensions = s.suspensions := rfl

@[simp] theorem State.resume_chipStateUnknown (s : State) : (State.resume s).chipStateUnknown = s.chipStateUnknown := rfl

@[simp] theorem State.resume_trace (s : State) : (State.resume s).trace = s.trace ++ [.resumed] := rfl

@[simp] theorem State.resume_refusals (s : State) : (State.resume s).refusals = s.refusals := rfl

@[simp] theorem State.resume_env (s : State) : (State.resume s).env = { s.env with schedIn := s.env.schedIn.tail } := rfl

/-! ### cancel -/

@[simp] theorem State.cancel_variant (s : State) : (State.cancel s).variant = s.variant := rfl

@[simp] theorem State.cancel_geom (s : State) : (State.cancel s).geom = s.geom := rfl

@[simp] theorem State.cancel_verifyReadback (s : State) : (State.cancel s).verifyReadback = s.verifyReadback := rfl

@[simp] theorem State.cancel_params (s : State) : (State.cancel s).params = s.params := rfl

@[simp] theorem State.cancel_phase (s : State) : (State.cancel s).phase = .idle := rfl

@[simp] theorem State.cancel_req (s : State) : (State.cancel s).req = none := rfl

@[simp] theorem State.cancel_result (s : State) : (State.cancel s).result = s.result := rfl

@[simp] theorem State.cancel_pins (s : State) : (State.cancel s).pins = s.pins := rfl

@[simp] theorem State.cancel_faults (s : State) : (State.cancel s).faults = s.faults := rfl

@[simp] theorem State.cancel_statusReads (s : State) : (State.cancel s).statusReads = s.statusReads := rfl

@[simp] theorem State.cancel_suspensions (s : State) : (State.cancel s).suspensions = s.suspensions := rfl

@[simp] theorem State.cancel_chipStateUnknown (s : State) : (State.cancel s).chipStateUnknown = true := rfl

@[simp] theorem State.cancel_trace (s : State) : (State.cancel s).trace = s.trace ++ [.cancelled] := rfl

@[simp] theorem State.cancel_refusals (s : State) : (State.cancel s).refusals = s.refusals := rfl

@[simp] theorem State.cancel_env (s : State) : (State.cancel s).env = { s.env with schedIn := s.env.schedIn.tail } := rfl

/-! ### placeRecord -/

@[simp] theorem State.placeRecord_variant (w : RequestWord) (s : State) : (State.placeRecord w s).variant = s.variant := rfl

@[simp] theorem State.placeRecord_geom (w : RequestWord) (s : State) : (State.placeRecord w s).geom = s.geom := rfl

@[simp] theorem State.placeRecord_verifyReadback (w : RequestWord) (s : State) : (State.placeRecord w s).verifyReadback = s.verifyReadback := rfl

@[simp] theorem State.placeRecord_params (w : RequestWord) (s : State) : (State.placeRecord w s).params = s.params := rfl

@[simp] theorem State.placeRecord_phase (w : RequestWord) (s : State) : (State.placeRecord w s).phase = .idle := rfl

@[simp] theorem State.placeRecord_req (w : RequestWord) (s : State) : (State.placeRecord w s).req = none := rfl

@[simp] theorem State.placeRecord_result (w : RequestWord) (s : State) : (State.placeRecord w s).result = s.result := rfl

@[simp] theorem State.placeRecord_pins (w : RequestWord) (s : State) : (State.placeRecord w s).pins = s.pins := rfl

@[simp] theorem State.placeRecord_faults (w : RequestWord) (s : State) : (State.placeRecord w s).faults = s.faults := rfl

@[simp] theorem State.placeRecord_statusReads (w : RequestWord) (s : State) : (State.placeRecord w s).statusReads = s.statusReads := rfl

@[simp] theorem State.placeRecord_suspensions (w : RequestWord) (s : State) : (State.placeRecord w s).suspensions = s.suspensions := rfl

@[simp] theorem State.placeRecord_chipStateUnknown (w : RequestWord) (s : State) : (State.placeRecord w s).chipStateUnknown = s.chipStateUnknown := rfl

@[simp] theorem State.placeRecord_trace (w : RequestWord) (s : State) : (State.placeRecord w s).trace = s.trace := rfl

@[simp] theorem State.placeRecord_refusals (w : RequestWord) (s : State) : (State.placeRecord w s).refusals = s.refusals := rfl

@[simp] theorem State.placeRecord_env (w : RequestWord) (s : State) : (State.placeRecord w s).env = { s.env with port := some (.record w) } := rfl

/-! ### placeFrame -/

@[simp] theorem State.placeFrame_variant (p : Phase) (r : Request) (s : State) : (State.placeFrame p r s).variant = s.variant := rfl

@[simp] theorem State.placeFrame_geom (p : Phase) (r : Request) (s : State) : (State.placeFrame p r s).geom = s.geom := rfl

@[simp] theorem State.placeFrame_verifyReadback (p : Phase) (r : Request) (s : State) : (State.placeFrame p r s).verifyReadback = s.verifyReadback := rfl

@[simp] theorem State.placeFrame_params (p : Phase) (r : Request) (s : State) : (State.placeFrame p r s).params = s.params := rfl

@[simp] theorem State.placeFrame_phase (p : Phase) (r : Request) (s : State) : (State.placeFrame p r s).phase = p := rfl

@[simp] theorem State.placeFrame_req (p : Phase) (r : Request) (s : State) : (State.placeFrame p r s).req = some r := rfl

@[simp] theorem State.placeFrame_result (p : Phase) (r : Request) (s : State) : (State.placeFrame p r s).result = s.result := rfl

@[simp] theorem State.placeFrame_pins (p : Phase) (r : Request) (s : State) : (State.placeFrame p r s).pins = s.pins := rfl

@[simp] theorem State.placeFrame_faults (p : Phase) (r : Request) (s : State) : (State.placeFrame p r s).faults = s.faults := rfl

@[simp] theorem State.placeFrame_statusReads (p : Phase) (r : Request) (s : State) : (State.placeFrame p r s).statusReads = s.statusReads := rfl

@[simp] theorem State.placeFrame_suspensions (p : Phase) (r : Request) (s : State) : (State.placeFrame p r s).suspensions = s.suspensions := rfl

@[simp] theorem State.placeFrame_chipStateUnknown (p : Phase) (r : Request) (s : State) : (State.placeFrame p r s).chipStateUnknown = s.chipStateUnknown := rfl

@[simp] theorem State.placeFrame_trace (p : Phase) (r : Request) (s : State) : (State.placeFrame p r s).trace = s.trace := rfl

@[simp] theorem State.placeFrame_refusals (p : Phase) (r : Request) (s : State) : (State.placeFrame p r s).refusals = s.refusals := rfl

@[simp] theorem State.placeFrame_env (p : Phase) (r : Request) (s : State) : (State.placeFrame p r s).env = { s.env with port := none } := rfl

/-! ### commandSent -/

@[simp] theorem commandSent_variant (received : List Byte) (s : State) : (commandSent received s).variant = s.variant := rfl

@[simp] theorem commandSent_geom (received : List Byte) (s : State) : (commandSent received s).geom = s.geom := rfl

@[simp] theorem commandSent_verifyReadback (received : List Byte) (s : State) : (commandSent received s).verifyReadback = s.verifyReadback := rfl

@[simp] theorem commandSent_params (received : List Byte) (s : State) : (commandSent received s).params = s.params := rfl

@[simp] theorem commandSent_phase (received : List Byte) (s : State) : (commandSent received s).phase = .commandIssued := rfl

@[simp] theorem commandSent_req (received : List Byte) (s : State) : (commandSent received s).req = s.req := rfl

@[simp] theorem commandSent_result (received : List Byte) (s : State) : (commandSent received s).result = s.result := rfl

@[simp] theorem commandSent_pins (received : List Byte) (s : State) : (commandSent received s).pins = s.pins := rfl

@[simp] theorem commandSent_faults (received : List Byte) (s : State) : (commandSent received s).faults = s.faults := rfl

@[simp] theorem commandSent_statusReads (received : List Byte) (s : State) : (commandSent received s).statusReads = 0 := rfl

@[simp] theorem commandSent_suspensions (received : List Byte) (s : State) : (commandSent received s).suspensions = s.suspensions := rfl

@[simp] theorem commandSent_chipStateUnknown (received : List Byte) (s : State) : (commandSent received s).chipStateUnknown = s.chipStateUnknown := rfl

@[simp] theorem commandSent_trace (received : List Byte) (s : State) : (commandSent received s).trace = s.trace := rfl

@[simp] theorem commandSent_refusals (received : List Byte) (s : State) : (commandSent received s).refusals = s.refusals := rfl

@[simp] theorem commandSent_env (received : List Byte) (s : State) : (commandSent received s).env = s.env := rfl

/-! ### consume: only the port or the queue changes -/

@[simp] theorem State.consume_variant (s : State) : s.consume.variant = s.variant := by
  unfold State.consume; split <;> rfl

@[simp] theorem State.consume_geom (s : State) : s.consume.geom = s.geom := by
  unfold State.consume; split <;> rfl

@[simp] theorem State.consume_verifyReadback (s : State) : s.consume.verifyReadback = s.verifyReadback := by
  unfold State.consume; split <;> rfl

@[simp] theorem State.consume_params (s : State) : s.consume.params = s.params := by
  unfold State.consume; split <;> rfl

@[simp] theorem State.consume_phase (s : State) : s.consume.phase = s.phase := by
  unfold State.consume; split <;> rfl

@[simp] theorem State.consume_req (s : State) : s.consume.req = s.req := by
  unfold State.consume; split <;> rfl

@[simp] theorem State.consume_result (s : State) : s.consume.result = s.result := by
  unfold State.consume; split <;> rfl

@[simp] theorem State.consume_pins (s : State) : s.consume.pins = s.pins := by
  unfold State.consume; split <;> rfl

@[simp] theorem State.consume_faults (s : State) : s.consume.faults = s.faults := by
  unfold State.consume; split <;> rfl

@[simp] theorem State.consume_statusReads (s : State) : s.consume.statusReads = s.statusReads := by
  unfold State.consume; split <;> rfl

@[simp] theorem State.consume_suspensions (s : State) : s.consume.suspensions = s.suspensions := by
  unfold State.consume; split <;> rfl

@[simp] theorem State.consume_chipStateUnknown (s : State) : s.consume.chipStateUnknown = s.chipStateUnknown := by
  unfold State.consume; split <;> rfl

@[simp] theorem State.consume_trace (s : State) : s.consume.trace = s.trace := by
  unfold State.consume; split <;> rfl

@[simp] theorem State.consume_refusals (s : State) : s.consume.refusals = s.refusals := by
  unfold State.consume; split <;> rfl

@[simp] theorem State.consume_xferAnswer (s : State) : s.consume.xferAnswer = s.xferAnswer := by
  unfold State.consume; split <;> rfl

@[simp] theorem State.consume_pinAnswer (s : State) : s.consume.pinAnswer = s.pinAnswer := by
  unfold State.consume; split <;> rfl

@[simp] theorem State.setLevel_isSome (p : Pin) (v : PinLevel) (s : State) :
    (State.setLevel p v s).pins.isSome = s.pins.isSome := by
  simp [State.setLevel]

/-! ### What the interfaces will answer is not changed by an update of the block's own fields -/

@[simp] theorem State.record_xferAnswer (e : Event) (s : State) : (State.record e s).xferAnswer = s.xferAnswer := rfl

@[simp] theorem State.goto_xferAnswer (p : Phase) (s : State) : (State.goto p s).xferAnswer = s.xferAnswer := rfl

@[simp] theorem State.finish_xferAnswer (pl : Payload) (s : State) : (State.finish pl s).xferAnswer = s.xferAnswer := rfl

@[simp] theorem State.latch_xferAnswer (r : Request) (s : State) : (State.latch r s).xferAnswer = s.xferAnswer := rfl

@[simp] theorem State.countRead_xferAnswer (s : State) : (State.countRead s).xferAnswer = s.xferAnswer := rfl

@[simp] theorem State.markRefused_xferAnswer (k : Refused) (s : State) : (State.markRefused k s).xferAnswer = s.xferAnswer := rfl

@[simp] theorem State.raise_xferAnswer (e : BlockError) (s : State) : (State.raise e s).xferAnswer = s.xferAnswer := rfl

@[simp] theorem State.recordFault_xferAnswer (f : ContractFault) (s : State) : (State.recordFault f s).xferAnswer = s.xferAnswer := rfl

@[simp] theorem State.failTransport_xferAnswer (b : Bool) (e : TransportErr) (s : State) : (State.failTransport b e s).xferAnswer = s.xferAnswer := rfl

@[simp] theorem State.deliver_xferAnswer (s : State) : (State.deliver s).xferAnswer = s.xferAnswer := rfl

@[simp] theorem State.setLevel_xferAnswer (p : Pin) (v : PinLevel) (s : State) : (State.setLevel p v s).xferAnswer = s.xferAnswer := rfl

@[simp] theorem State.yield_xferAnswer (s : State) : (State.yield s).xferAnswer = s.xferAnswer := rfl

@[simp] theorem State.resume_xferAnswer (s : State) : (State.resume s).xferAnswer = s.xferAnswer := rfl

@[simp] theorem State.latch_pinAnswer (r : Request) (s : State) : (State.latch r s).pinAnswer = s.pinAnswer := rfl

end Sys2Proof.Machine
end

