-- ==== Sys2Proof/Laws/Ops.lean ====
section
/-!
SUPPORT. One lemma for each shared operation: the encoder, the transaction, sending a frame, the accept step. Later proofs cite
these and do not unfold the operations.
-/

namespace Sys2Proof

/-! ### The encoder -/

theorem encodeOp_addr {op : Operation} {a : Addr} (ht : op.takesAddress = true) (ha : a.toNat < addrLimit) :
    encodeOp op a = .ok (opcode op :: addrBytes a) := by
  simp [encodeOp, ht, Nat.not_le.mpr ha]

theorem encodeOp_bare {op : Operation} {a : Addr} (ht : op.takesAddress = false) : encodeOp op a = .ok [opcode op] := by
  simp [encodeOp, ht]

theorem encodeOp_out_of_range {op : Operation} {a : Addr} (ht : op.takesAddress = true) (ha : addrLimit ≤ a.toNat) :
    encodeOp op a = .error (.encoderAddressRange a) := by
  simp [encodeOp, ht, ha]

theorem frame_addr {op : Operation} {a : Addr} {tail : List Byte} (ht : op.takesAddress = true)
    (ha : a.toNat < addrLimit) : frame op a tail = .ok (opcode op :: addrBytes a ++ tail) := by
  simp [frame, encodeOp_addr ht ha]

theorem frame_bare {op : Operation} {a : Addr} {tail : List Byte} (ht : op.takesAddress = false) :
    frame op a tail = .ok (opcode op :: tail) := by
  simp [frame, encodeOp_bare ht]

theorem frame_out_of_range {op : Operation} {a : Addr} {tail : List Byte} (ht : op.takesAddress = true)
    (ha : addrLimit ≤ a.toNat) : frame op a tail = .error (.encoderAddressRange a) := by
  simp [frame, encodeOp_out_of_range ht ha]

@[simp] theorem length_fill (p : Params) (n : Nat) : (fill p n).length = n := by simp [fill]

@[simp] theorem length_addrBytes (a : Addr) : (addrBytes a).length = 3 := rfl

/-- The three address bytes spell the address (R72). -/
theorem addrBytes_value (a : Addr) (ha : a.toNat < addrLimit) :
    (a.extractLsb' 16 8).toNat * 2 ^ 16 + (a.extractLsb' 8 8).toNat * 2 ^ 8 + (a.extractLsb' 0 8).toNat = a.toNat := by
  simp only [addrLimit] at ha
  simp only [BitVec.extractLsb'_toNat, Nat.shiftRight_eq_div_pow]
  omega

namespace Machine

/-! ### The checks of the requests -/

section Checks

variable {g : Geometry} {p : Params} {a : Addr} {n : Nat} {d : List Byte} {gran : Granularity} {size : Nat}

theorem checkFrameAddr_pass (h : a.toNat < addrLimit) : checkFrameAddr a = .pass := by
  rw [checkFrameAddr, if_neg (Nat.not_le.mpr h)]

theorem checkFrameAddr_fault (h : addrLimit ≤ a.toNat) : checkFrameAddr a = .fault (.encoderAddressRange a) := by
  rw [checkFrameAddr, if_pos h]

theorem checkRead_outOfBounds (h : g.capacity < a.toNat + n) : checkRead g a n = .fail .outOfBounds := by
  rw [checkRead, if_pos h]

theorem checkRead_inBounds (h : a.toNat + n ≤ g.capacity) : checkRead g a n = checkFrameAddr a := by
  rw [checkRead, if_neg (Nat.not_lt.mpr h)]

theorem checkProgram_boundary (h : g.pageSize < a.toNat % g.pageSize + d.length) :
    checkProgram g p a d = .fail (boundaryError p (decide (g.pageSize < d.length))) := by
  rw [checkProgram, if_pos h]

theorem checkProgram_outOfBounds (h : a.toNat % g.pageSize + d.length ≤ g.pageSize)
    (hc : p.programChecksCapacity = true) (hb : g.capacity < a.toNat + d.length) :
    checkProgram g p a d = .fail .outOfBounds := by
  rw [checkProgram, if_neg (Nat.not_lt.mpr h), if_pos (by simp [hc, hb])]

theorem checkProgram_inBounds (h : a.toNat % g.pageSize + d.length ≤ g.pageSize)
    (hb : p.programChecksCapacity = true → a.toNat + d.length ≤ g.capacity) :
    checkProgram g p a d = checkFrameAddr a := by
  rw [checkProgram, if_neg (Nat.not_lt.mpr h), if_neg]
  intro hx
  simp only [Bool.and_eq_true, decide_eq_true_eq] at hx
  exact absurd (hb hx.2) (Nat.not_le.mpr hx.1)

theorem checkErase_chip : checkErase g p .chip a = .pass := rfl

theorem checkErase_notAligned (hs : g.gsize gran = some size) (h : a.toNat % size ≠ 0) :
    checkErase g p gran a = .fail .notAligned := by
  simp [checkErase, hs, h]

theorem checkErase_outOfBounds (hs : g.gsize gran = some size) (h : a.toNat % size = 0)
    (hc : p.eraseChecksCapacity = true) (hb : g.capacity ≤ a.toNat) : checkErase g p gran a = .fail .outOfBounds := by
  simp [checkErase, hs, h, hc, hb]

theorem checkErase_inBounds (hs : g.gsize gran = some size) (h : a.toNat % size = 0)
    (hb : p.eraseChecksCapacity = true → a.toNat < g.capacity) : checkErase g p gran a = checkFrameAddr a := by
  have : ¬ (g.capacity ≤ a.toNat ∧ p.eraseChecksCapacity = true) := fun hx => absurd (hb hx.2) (Nat.not_lt.mpr hx.1)
  simp [checkErase, hs, h, this]

end Checks

/-! ### The transaction -/

variable {s t : State} {out : List Byte} {onOk : List Byte → State → State} {onErr : TransportErr → State → State}

theorem State.xfer_ok {received : List Byte} (h : s.xferAnswer = .ok received) (hl : received.length = out.length) :
    s.xfer out onOk onErr = onOk received (s.afterXfer out) := by
  simp [State.xfer, h, hl]

theorem State.xfer_err {e : TransportErr} (h : s.xferAnswer = .err e) :
    s.xfer out onOk onErr = onErr e (s.afterXfer out) := by
  simp [State.xfer, h]

theorem State.xfer_badLength {received : List Byte} (h : s.xferAnswer = .ok received)
    (hl : received.length ≠ out.length) :
    s.xfer out onOk onErr = (s.afterXfer out).recordFault .transportContract := by
  simp [State.xfer, h, hl]

/-- Everything a transaction can do. -/
theorem State.xfer_cases (s : State) (out : List Byte) (onOk : List Byte → State → State)
    (onErr : TransportErr → State → State) :
    (∃ received, s.xferAnswer = .ok received ∧ received.length = out.length ∧
      s.xfer out onOk onErr = onOk received (s.afterXfer out)) ∨
    (∃ e, s.xferAnswer = .err e ∧ s.xfer out onOk onErr = onErr e (s.afterXfer out)) ∨
    (∃ received, s.xferAnswer = .ok received ∧ received.length ≠ out.length ∧
      s.xfer out onOk onErr = (s.afterXfer out).recordFault .transportContract) := by
  cases h : s.xferAnswer with
  | err e => exact .inr (.inl ⟨e, rfl, State.xfer_err h⟩)
  | ok received =>
    by_cases hl : received.length = out.length
    · exact .inl ⟨received, rfl, hl, State.xfer_ok h hl⟩
    · exact .inr (.inr ⟨received, rfl, hl, State.xfer_badLength h hl⟩)

/-! ### Sending a frame -/

variable {i : Instr} {bytes : Except ContractFault (List Byte)}

theorem State.send_faulted (h : s.phase = .faulted) : s.send i bytes onOk onErr = .fault (.stopped s.faults) := by
  simp [State.send, h]

theorem State.send_ok (h : s.phase ≠ .faulted) (hs : s.selected = some i) (hb : bytes = .ok out) :
    s.send i bytes onOk onErr = .next (s.xfer out onOk onErr) := by
  unfold State.send
  split
  · exact absurd ‹_› h
  · simp [hs, hb]

theorem State.send_error {f : ContractFault} (h : s.phase ≠ .faulted) (hs : s.selected = some i)
    (hb : bytes = .error f) : s.send i bytes onOk onErr = .next (s.recordFault f) := by
  unfold State.send
  split
  · exact absurd ‹_› h
  · simp [hs, hb]

theorem State.send_notSelected (h : s.phase ≠ .faulted) (hs : s.selected ≠ some i) :
    s.send i bytes onOk onErr = .refused .noSuchStep := by
  unfold State.send
  split
  · exact absurd ‹_› h
  · simp [hs]

/-- A frame that answers a next state was selected, and either could not be encoded or was one transaction. -/
theorem State.send_next (h : s.send i bytes onOk onErr = .next t) :
    s.phase ≠ .faulted ∧ s.selected = some i ∧
      ((∃ f, bytes = .error f ∧ t = s.recordFault f) ∨ (∃ out, bytes = .ok out ∧ t = s.xfer out onOk onErr)) := by
  by_cases hf : s.phase = .faulted
  · rw [State.send_faulted hf] at h; cases h
  · refine ⟨hf, ?_⟩
    by_cases hs : s.selected = some i
    · refine ⟨hs, ?_⟩
      cases hb : bytes with
      | error f => rw [State.send_error hf hs hb] at h; cases h; exact .inl ⟨f, rfl, rfl⟩
      | ok out => rw [State.send_ok hf hs hb] at h; cases h; exact .inr ⟨out, rfl, rfl⟩
    · rw [State.send_notSelected hf hs] at h; cases h

/-! ### The accept step -/

variable {r : Request} {v : Verdict} {first : State → Result}

theorem State.accept_pass (h : s.phase = .idle) : s.accept r .pass first = first (s.latch r) := by
  simp [State.accept, h]

theorem State.accept_fail {e : BlockError} (h : s.phase = .idle) :
    s.accept r (.fail e) first = .next ((s.latch r).raise e) := by
  simp [State.accept, h]

theorem State.accept_fault {f : ContractFault} (h : s.phase = .idle) :
    s.accept r (.fault f) first = .next ((s.latch r).recordFault f) := by
  simp [State.accept, h]

theorem State.accept_faulted (h : s.phase = .faulted) : s.accept r v first = .fault (.stopped s.faults) := by
  simp [State.accept, h]

theorem State.accept_concurrent (h : s.phase ≠ .idle) (hf : s.phase ≠ .faulted) :
    s.accept r v first = .next (s.recordFault .concurrentUse) := by
  unfold State.accept
  split
  · exact absurd ‹_› hf
  · exact absurd ‹_› h
  · rfl

/-- Everything an accept step that answers a next state can be. -/
theorem State.accept_next (h : s.accept r v first = .next t) :
    (s.phase = .idle ∧ v = .pass ∧ first (s.latch r) = .next t) ∨
    (∃ e, s.phase = .idle ∧ v = .fail e ∧ t = (s.latch r).raise e) ∨
    (∃ f, s.phase = .idle ∧ v = .fault f ∧ t = (s.latch r).recordFault f) ∨
    (s.phase ≠ .idle ∧ s.phase ≠ .faulted ∧ t = s.recordFault .concurrentUse) := by
  by_cases hf : s.phase = .faulted
  · rw [State.accept_faulted hf] at h; cases h
  · by_cases hi : s.phase = .idle
    · cases v with
      | pass => exact .inl ⟨hi, rfl, by rw [State.accept_pass hi] at h; exact h⟩
      | fail e =>
        rw [State.accept_fail hi] at h; cases h
        exact .inr (.inl ⟨e, hi, rfl, rfl⟩)
      | fault f =>
        rw [State.accept_fault hi] at h; cases h
        exact .inr (.inr (.inl ⟨f, hi, rfl, rfl⟩))
    · rw [State.accept_concurrent hi hf] at h; cases h
      exact .inr (.inr (.inr ⟨hi, hf, rfl⟩))

/-- Everything a pin request that answers a next state can be. -/
theorem State.acceptPin_next {p : Pin} {l : Level} (h : s.acceptPin p l r = .next t) :
    (s.phase = .idle ∧ s.variant = .suspending ∧ t = s.markRefused .noPins) ∨
    (s.phase = .idle ∧ s.variant = .blocking ∧ t = (s.latch r).drivePin p l) ∨
    (s.phase ≠ .idle ∧ s.phase ≠ .faulted ∧ t = s.recordFault .concurrentUse) := by
  unfold State.acceptPin at h
  split at h
  · cases h; exact .inl ⟨‹_›, ‹_›, rfl⟩
  · rename_i hx
    rcases State.accept_next h with ⟨hi, -, hn⟩ | ⟨e, -, hv, -⟩ | ⟨f, -, hv, -⟩ | h'
    · cases hn
      refine .inr (.inl ⟨hi, ?_, rfl⟩)
      cases hv : s.variant with
      | blocking => rfl
      | suspending => exact absurd hv (hx hi)
    · cases hv
    · cases hv
    · exact .inr (.inr h')

end Machine

end Sys2Proof
end

