-- ==== Sys2Proof/Laws/Decode.lean ====
section
/-!
SUPPORT. The decoders read back what the encoders write: the address bytes, the opcode table, and each frame format.
-/

namespace Sys2Proof

/-- Three address bytes spell an address that fits a frame. -/
theorem addrOfBytes_toNat (hi mid lo : Byte) :
    (addrOfBytes hi mid lo).toNat = hi.toNat * 2 ^ 16 + mid.toNat * 2 ^ 8 + lo.toNat := by
  have h1 := hi.isLt
  have h2 := mid.isLt
  have h3 := lo.isLt
  simp only [addrOfBytes, BitVec.toNat_ofNat]
  omega

theorem addrOfBytes_lt (hi mid lo : Byte) : (addrOfBytes hi mid lo).toNat < addrLimit := by
  have h1 := hi.isLt
  have h2 := mid.isLt
  have h3 := lo.isLt
  rw [addrOfBytes_toNat, addrLimit]
  omega

/-- An address that fits a frame is spelt by its three bytes (R72). -/
theorem addrOfBytes_extract (a : Addr) (ha : a.toNat < addrLimit) :
    addrOfBytes (a.extractLsb' 16 8) (a.extractLsb' 8 8) (a.extractLsb' 0 8) = a :=
  BitVec.eq_of_toNat_eq (by rw [addrOfBytes_toNat, addrBytes_value a ha])

/-- The bytes of an address read from three bytes are those bytes. -/
theorem addrBytes_addrOfBytes (hi mid lo : Byte) : addrBytes (addrOfBytes hi mid lo) = [hi, mid, lo] := by
  have h1 := hi.isLt
  have h2 := mid.isLt
  have h3 := lo.isLt
  have e16 : (addrOfBytes hi mid lo).extractLsb' 16 8 = hi := by
    apply BitVec.eq_of_toNat_eq
    simp only [BitVec.extractLsb'_toNat, addrOfBytes_toNat, Nat.shiftRight_eq_div_pow]
    omega
  have e8 : (addrOfBytes hi mid lo).extractLsb' 8 8 = mid := by
    apply BitVec.eq_of_toNat_eq
    simp only [BitVec.extractLsb'_toNat, addrOfBytes_toNat, Nat.shiftRight_eq_div_pow]
    omega
  have e0 : (addrOfBytes hi mid lo).extractLsb' 0 8 = lo := by
    apply BitVec.eq_of_toNat_eq
    simp only [BitVec.extractLsb'_toNat, addrOfBytes_toNat, Nat.shiftRight_eq_div_pow]
    omega
  simp only [addrBytes, e16, e8, e0]

/-- The table is injective (R124). -/
theorem opcode_injective {op op' : Operation} (h : opcode op = opcode op') : op = op' := by
  revert h
  cases op <;> cases op' <;> decide

@[simp] theorem operationOf_opcode (op : Operation) : operationOf (opcode op) = some op := by
  cases op <;> decide

/-- A byte selects an operation only if it is that operation's opcode (R75). -/
theorem operationOf_some {b : Byte} {op : Operation} (h : operationOf b = some op) : b = opcode op := by
  have := List.find?_some h
  simpa using (beq_iff_eq.mp this).symm

theorem decodeFrame_cons (p : Params) (op : Operation) (rest : List Byte) :
    decodeFrame p (opcode op :: rest) = decodeBody p op rest := by
  simp [decodeFrame]

theorem decodeAddr_addrBytes (i : Addr → Instr) {a : Addr} (ha : a.toNat < addrLimit) :
    decodeAddr i (addrBytes a) = .ok (i a) := by
  simp [decodeAddr, addrBytes, addrOfBytes_extract a ha]

theorem decodeAddrWdata_addrBytes (i : Addr → List Byte → Instr) {a : Addr} {d : List Byte} (ha : a.toNat < addrLimit)
    (hd : d.length ≤ Config.pageSize) : decodeAddrWdata i (addrBytes a ++ d) = .ok (i a d) := by
  simp [decodeAddrWdata, addrBytes, addrOfBytes_extract a ha, hd]

theorem decodeAddrRdata_addrBytes (p : Params) (i : Addr → Nat → Instr) {a : Addr} (n : Nat) (ha : a.toNat < addrLimit) :
    decodeAddrRdata p i (addrBytes a ++ fill p n) = .ok (i a n) := by
  simp [decodeAddrRdata, addrBytes, addrOfBytes_extract a ha]

theorem decodeFill_self (tail : List Byte) (i : Instr) : decodeFill tail i tail = .ok i := by
  simp [decodeFill]

end Sys2Proof
end

