-- ==== Sys2Proof/Laws/Exec.lean ====
section
/-!
SUPPORT. What the meanings can do, said once: the common form of the thirteen frames, the common form of the requests, and what
the phase and the latched request are where the tables select a frame.
-/

namespace Sys2Proof.Machine

/-! ### Frames -/

/-- The bytes of a command frame. -/
def txBytes (p : Params) : Instr → Except ContractFault (List Byte)
  | .txPageProgram a d => frame .pageProgram a d
  | .txReadData a n => frame .readData a (fill p n)
  | .txReadStatusRegister1 => frame .readStatusRegister1 0 (fill p 1)
  | .txWriteEnable => frame .writeEnable 0 []
  | .txSectorErase a => frame .sectorErase a []
  | .txUniqueId => frame .uniqueId 0 (uidTail p)
  | .txBlock32Erase a => frame .block32Erase a []
  | .txBlock64Erase a => frame .block64Erase a []
  | .txChipErase => frame .chipErase 0 []
  | .txEnableReset => frame .enableReset 0 []
  | .txPowerDown => frame .powerDown 0 []
  | .txReleasePowerDown => frame .releasePowerDown 0 []
  | .txReset => frame .reset 0 []
  | _ => .ok []

@[simp] theorem txBytes_txPageProgram (p : Params) (a : Addr) (d : List Byte) : txBytes p (.txPageProgram a d) = frame .pageProgram a d := rfl

@[simp] theorem txBytes_txReadData (p : Params) (a : Addr) (n : Nat) : txBytes p (.txReadData a n) = frame .readData a (fill p n) := rfl

@[simp] theorem txBytes_txReadStatusRegister1 (p : Params) : txBytes p .txReadStatusRegister1 = .ok [0x05, p.fillByte] := rfl

@[simp] theorem txBytes_txWriteEnable (p : Params) : txBytes p .txWriteEnable = .ok [0x06] := rfl

@[simp] theorem txBytes_txSectorErase (p : Params) (a : Addr) : txBytes p (.txSectorErase a) = frame .sectorErase a [] := rfl

@[simp] theorem txBytes_txUniqueId (p : Params) : txBytes p .txUniqueId = .ok (0x4B :: uidTail p) := rfl

@[simp] theorem txBytes_txBlock32Erase (p : Params) (a : Addr) : txBytes p (.txBlock32Erase a) = frame .block32Erase a [] := rfl

@[simp] theorem txBytes_txBlock64Erase (p : Params) (a : Addr) : txBytes p (.txBlock64Erase a) = frame .block64Erase a [] := rfl

@[simp] theorem txBytes_txChipErase (p : Params) : txBytes p .txChipErase = .ok [0xC7] := rfl

@[simp] theorem txBytes_txEnableReset (p : Params) : txBytes p .txEnableReset = .ok [0x66] := rfl

@[simp] theorem txBytes_txPowerDown (p : Params) : txBytes p .txPowerDown = .ok [0xB9] := rfl

@[simp] theorem txBytes_txReleasePowerDown (p : Params) : txBytes p .txReleasePowerDown = .ok [0xAB] := rfl

@[simp] theorem txBytes_txReset (p : Params) : txBytes p .txReset = .ok [0x99] := rfl

/-- A well-formed frame has bytes, and they are its encoding. -/
theorem txBytes_wf {p : Params} {i : Instr} (hi : i.request? = none) (hw : i.wf = true) :
    ∃ out, txBytes p i = .ok out ∧ encode p i = .frame out := by
  cases i with
  | txPageProgram a d =>
    simp only [Instr.wf, Bool.and_eq_true, decide_eq_true_eq] at hw
    exact ⟨opcode .pageProgram :: addrBytes a ++ d, frame_addr rfl hw.1, congrArg Encoded.ofFrame (frame_addr rfl hw.1)⟩
  | txReadData a n =>
    have ha : a.toNat < addrLimit := of_decide_eq_true hw
    exact ⟨opcode .readData :: addrBytes a ++ fill p n, frame_addr rfl ha, congrArg Encoded.ofFrame (frame_addr rfl ha)⟩
  | txSectorErase a =>
    have ha : a.toNat < addrLimit := of_decide_eq_true hw
    exact ⟨opcode .sectorErase :: addrBytes a ++ [], frame_addr rfl ha, congrArg Encoded.ofFrame (frame_addr rfl ha)⟩
  | txBlock32Erase a =>
    have ha : a.toNat < addrLimit := of_decide_eq_true hw
    exact ⟨opcode .block32Erase :: addrBytes a ++ [], frame_addr rfl ha, congrArg Encoded.ofFrame (frame_addr rfl ha)⟩
  | txBlock64Erase a =>
    have ha : a.toNat < addrLimit := of_decide_eq_true hw
    exact ⟨opcode .block64Erase :: addrBytes a ++ [], frame_addr rfl ha, congrArg Encoded.ofFrame (frame_addr rfl ha)⟩
  | txReadStatusRegister1 => exact ⟨_, rfl, rfl⟩
  | txWriteEnable => exact ⟨_, rfl, rfl⟩
  | txUniqueId => exact ⟨_, rfl, rfl⟩
  | txChipErase => exact ⟨_, rfl, rfl⟩
  | txEnableReset => exact ⟨_, rfl, rfl⟩
  | txPowerDown => exact ⟨_, rfl, rfl⟩
  | txReleasePowerDown => exact ⟨_, rfl, rfl⟩
  | txReset => exact ⟨_, rfl, rfl⟩
  | _ => cases hi

/-- What follows an Ok of a frame sent in phase `ph`. -/
def txOk (ph : Phase) : Instr → List Byte → State → State
  | .txPageProgram _ _ => commandSent
  | .txReadData _ n => readDone n
  | .txReadStatusRegister1 =>
    if ph = .writeEnableSent then confirmLatch else pollBranch
  | .txWriteEnable => fun _ t => t.goto .writeEnableSent
  | .txSectorErase _ => commandSent
  | .txUniqueId => uidDone
  | .txBlock32Erase _ => commandSent
  | .txBlock64Erase _ => commandSent
  | .txChipErase => commandSent
  | .txEnableReset => fun _ t => t.goto .resetEnableSent
  | _ => bareDone

/-- What follows an Err of a frame sent in phase `ph`. -/
def txErr (ph : Phase) : Instr → TransportErr → State → State
  | .txPageProgram _ _ => State.failTransport true
  | .txReadData _ _ => State.failTransport (ph == .verifying)
  | .txReadStatusRegister1 =>
    if ph = .writeEnableSent then State.failTransport false else State.failTransport true
  | .txSectorErase _ => State.failTransport true
  | .txBlock32Erase _ => State.failTransport true
  | .txBlock64Erase _ => State.failTransport true
  | .txChipErase => State.failTransport true
  | _ => State.failTransport false

@[simp] theorem txOk_txPageProgram (ph : Phase) (a : Addr) (d : List Byte) : txOk ph (.txPageProgram a d) = commandSent := rfl

@[simp] theorem txErr_txPageProgram (ph : Phase) (a : Addr) (d : List Byte) : txErr ph (.txPageProgram a d) = State.failTransport true := rfl

@[simp] theorem txOk_txReadData (ph : Phase) (a : Addr) (n : Nat) : txOk ph (.txReadData a n) = readDone n := rfl

@[simp] theorem txErr_txReadData (ph : Phase) (a : Addr) (n : Nat) : txErr ph (.txReadData a n) = State.failTransport (ph == .verifying) := rfl

@[simp] theorem txOk_txWriteEnable (ph : Phase) : txOk ph .txWriteEnable = fun _ t => t.goto .writeEnableSent := rfl

@[simp] theorem txErr_txWriteEnable (ph : Phase) : txErr ph .txWriteEnable = State.failTransport false := rfl

@[simp] theorem txOk_txSectorErase (ph : Phase) (a : Addr) : txOk ph (.txSectorErase a) = commandSent := rfl

@[simp] theorem txErr_txSectorErase (ph : Phase) (a : Addr) : txErr ph (.txSectorErase a) = State.failTransport true := rfl

@[simp] theorem txOk_txUniqueId (ph : Phase) : txOk ph .txUniqueId = uidDone := rfl

@[simp] theorem txErr_txUniqueId (ph : Phase) : txErr ph .txUniqueId = State.failTransport false := rfl

@[simp] theorem txOk_txBlock32Erase (ph : Phase) (a : Addr) : txOk ph (.txBlock32Erase a) = commandSent := rfl

@[simp] theorem txErr_txBlock32Erase (ph : Phase) (a : Addr) : txErr ph (.txBlock32Erase a) = State.failTransport true := rfl

@[simp] theorem txOk_txBlock64Erase (ph : Phase) (a : Addr) : txOk ph (.txBlock64Erase a) = commandSent := rfl

@[simp] theorem txErr_txBlock64Erase (ph : Phase) (a : Addr) : txErr ph (.txBlock64Erase a) = State.failTransport true := rfl

@[simp] theorem txOk_txChipErase (ph : Phase) : txOk ph .txChipErase = commandSent := rfl

@[simp] theorem txErr_txChipErase (ph : Phase) : txErr ph .txChipErase = State.failTransport true := rfl

@[simp] theorem txOk_txEnableReset (ph : Phase) : txOk ph .txEnableReset = fun _ t => t.goto .resetEnableSent := rfl

@[simp] theorem txErr_txEnableReset (ph : Phase) : txErr ph .txEnableReset = State.failTransport false := rfl

@[simp] theorem txOk_txPowerDown (ph : Phase) : txOk ph .txPowerDown = bareDone := rfl

@[simp] theorem txErr_txPowerDown (ph : Phase) : txErr ph .txPowerDown = State.failTransport false := rfl

@[simp] theorem txOk_txReleasePowerDown (ph : Phase) : txOk ph .txReleasePowerDown = bareDone := rfl

@[simp] theorem txErr_txReleasePowerDown (ph : Phase) : txErr ph .txReleasePowerDown = State.failTransport false := rfl

@[simp] theorem txOk_txReset (ph : Phase) : txOk ph .txReset = bareDone := rfl

@[simp] theorem txErr_txReset (ph : Phase) : txErr ph .txReset = State.failTransport false := rfl

theorem txOk_confirmation {ph : Phase} (h : ph = .writeEnableSent) : txOk ph .txReadStatusRegister1 = confirmLatch := by
  unfold txOk
  rw [if_pos h]

theorem txOk_poll {ph : Phase} (h : ph ≠ .writeEnableSent) :
    txOk ph .txReadStatusRegister1 = pollBranch := by
  unfold txOk
  rw [if_neg h]

theorem txErr_confirmation {ph : Phase} (h : ph = .writeEnableSent) :
    txErr ph .txReadStatusRegister1 = State.failTransport false := by
  unfold txErr
  rw [if_pos h]

theorem txErr_poll {ph : Phase} (h : ph ≠ .writeEnableSent) :
    txErr ph .txReadStatusRegister1 = State.failTransport true := by
  unfold txErr
  rw [if_neg h]

/-- The tables select only command frames. -/
theorem State.selected_isFrame {s : State} {i : Instr} (h : s.selected = some i) : i.request? = none := by
  unfold State.selected at h
  split at h
  · rename_i r _ _; cases r <;> simp [firstFrame] at h <;> subst h <;> rfl
  · cases h; rfl
  · simp only [statusFrame] at h; split at h <;> cases h; rfl
  · rename_i r _ _
    unfold commandFrame at h
    split at h <;> cases h <;> rfl
  · simp only [statusFrame] at h; split at h <;> cases h; rfl
  · simp only [statusFrame] at h; split at h <;> (try split at h) <;> cases h; rfl
  · simp only [statusFrame] at h; split at h <;> (try split at h) <;> cases h; rfl
  · cases h; rfl
  · cases h

/-- Where a frame is selected: one row of R150 or R201 each. -/
theorem State.selected_cases {s : State} {i : Instr} (h : s.selected = some i) :
    (∃ r, s.phase = .idle ∧ s.req = some r ∧ firstFrame r = some i) ∨
    (s.phase = .resetEnableSent ∧ s.req = some .reset ∧ i = .txReset) ∨
    (∃ r, s.phase = .confirmed ∧ s.req = some r ∧ commandFrame r = some i) ∨
    (∃ r, s.req = some r ∧ r.destructive = true ∧ i = .txReadStatusRegister1 ∧
      (s.phase = .writeEnableSent ∨ s.phase = .commandIssued ∨ (s.phase = .pollingBusy ∧ s.variant = .blocking) ∨
        (s.phase = .suspended ∧ s.variant = .suspending))) ∨
    (∃ a d, s.phase = .verifying ∧ s.req = some (.program a d) ∧ i = .txReadData a d.length) := by
  unfold State.selected statusFrame at h
  split at h
  · exact .inl ⟨_, ‹_›, ‹_›, h⟩
  · cases h; exact .inr (.inl ⟨‹_›, ‹_›, rfl⟩)
  · split at h <;> cases h
    exact .inr (.inr (.inr (.inl ⟨_, ‹_›, ‹_›, rfl, .inl ‹_›⟩)))
  · exact .inr (.inr (.inl ⟨_, ‹_›, ‹_›, h⟩))
  · split at h <;> cases h
    exact .inr (.inr (.inr (.inl ⟨_, ‹_›, ‹_›, rfl, .inr (.inl ‹_›)⟩)))
  · split at h
    · split at h <;> cases h
      exact .inr (.inr (.inr (.inl ⟨_, ‹_›, ‹_›, rfl, .inr (.inr (.inl ⟨‹_›, ‹_›⟩))⟩)))
    · cases h
  · split at h
    · split at h <;> cases h
      exact .inr (.inr (.inr (.inl ⟨_, ‹_›, ‹_›, rfl, .inr (.inr (.inr ⟨‹_›, ‹_›⟩))⟩)))
    · cases h
  · cases h; exact .inr (.inr (.inr (.inr ⟨_, _, ‹_›, ‹_›, rfl⟩)))
  · cases h

/-- The state a frame's transaction is made from: a status read of the poll is counted, whatever it answers (R33, R161). -/
def State.counted (i : Instr) (s : State) : State :=
  { s with
    statusReads := if i = .txReadStatusRegister1 ∧ s.phase ≠ .writeEnableSent then s.statusReads + 1 else s.statusReads }

@[simp] theorem State.counted_variant (i : Instr) (s : State) : (s.counted i).variant = s.variant := rfl

@[simp] theorem State.counted_geom (i : Instr) (s : State) : (s.counted i).geom = s.geom := rfl

@[simp] theorem State.counted_verifyReadback (i : Instr) (s : State) : (s.counted i).verifyReadback = s.verifyReadback := rfl

@[simp] theorem State.counted_params (i : Instr) (s : State) : (s.counted i).params = s.params := rfl

@[simp] theorem State.counted_phase (i : Instr) (s : State) : (s.counted i).phase = s.phase := rfl

@[simp] theorem State.counted_req (i : Instr) (s : State) : (s.counted i).req = s.req := rfl

@[simp] theorem State.counted_result (i : Instr) (s : State) : (s.counted i).result = s.result := rfl

@[simp] theorem State.counted_pins (i : Instr) (s : State) : (s.counted i).pins = s.pins := rfl

@[simp] theorem State.counted_faults (i : Instr) (s : State) : (s.counted i).faults = s.faults := rfl

@[simp] theorem State.counted_suspensions (i : Instr) (s : State) : (s.counted i).suspensions = s.suspensions := rfl

@[simp] theorem State.counted_chipStateUnknown (i : Instr) (s : State) :
    (s.counted i).chipStateUnknown = s.chipStateUnknown := rfl

@[simp] theorem State.counted_trace (i : Instr) (s : State) : (s.counted i).trace = s.trace := rfl

@[simp] theorem State.counted_refusals (i : Instr) (s : State) : (s.counted i).refusals = s.refusals := rfl

@[simp] theorem State.counted_env (i : Instr) (s : State) : (s.counted i).env = s.env := rfl

@[simp] theorem State.counted_selected (i : Instr) (s : State) : (s.counted i).selected = s.selected := rfl

@[simp] theorem State.counted_xferAnswer (i : Instr) (s : State) : (s.counted i).xferAnswer = s.xferAnswer := rfl

/-- The confirmation is not counted (R157). -/
theorem State.counted_confirmation {i : Instr} {s : State} (h : s.phase = .writeEnableSent) : s.counted i = s := by
  rw [State.counted, if_neg (fun hc => hc.2 h)]

/-- No other frame is counted. -/
@[simp] theorem State.counted_other {i : Instr} {s : State} (h : i ≠ .txReadStatusRegister1) : s.counted i = s := by
  rw [State.counted, if_neg (fun hc => h hc.1)]

theorem State.counted_poll {s : State} (h : s.phase ≠ .writeEnableSent) :
    s.counted .txReadStatusRegister1 = s.countRead := by
  simp [State.counted, State.countRead, h]

/-- A selected frame is counted exactly in the phases of the poll. -/
theorem State.counted_statusReads {i : Instr} {s : State} (h : s.selected = some i) :
    (s.counted i).statusReads = if s.phase = .commandIssued ∨ s.phase = .pollingBusy ∨ s.phase = .suspended then
      s.statusReads + 1 else s.statusReads := by
  rcases State.selected_cases h with ⟨r, hp, hr, hf⟩ | ⟨hp, hr, rfl⟩ | ⟨r, hp, hr, hc⟩ | ⟨r, hr, hd, rfl, hp⟩ |
      ⟨a, d, hp, hr, rfl⟩
  · have : i ≠ .txReadStatusRegister1 := by
      rintro rfl
      cases r <;> cases hf
    simp [State.counted, this, hp]
  · simp [State.counted, hp]
  · have : i ≠ .txReadStatusRegister1 := by
      rintro rfl
      unfold commandFrame at hc
      split at hc <;> cases hc
    simp [State.counted, this, hp]
  · rcases hp with hp | hp | ⟨hp, -⟩ | ⟨hp, -⟩ <;> simp [State.counted, hp]
  · simp [State.counted, hp]

/-- Every frame's meaning is one `send`. -/
theorem exec_frame {i : Instr} (h : i.request? = none) (s : State) :
    exec i s = (s.counted i).send i (txBytes s.params i) (txOk s.phase i) (txErr s.phase i) := by
  by_cases hi : i = .txReadStatusRegister1
  · subst hi
    show execTxReadStatusRegister1 s = _
    by_cases hp : s.phase = .writeEnableSent
    · rw [execTxReadStatusRegister1, if_pos hp, txOk_confirmation hp, txErr_confirmation hp, State.counted_confirmation hp]
      rfl
    · rw [execTxReadStatusRegister1, if_neg hp, txOk_poll hp, txErr_poll hp, State.counted_poll hp]
      rfl
  rw [State.counted_other hi]
  cases i with
  | txReadStatusRegister1 => exact absurd rfl hi
  | txPageProgram _ _ => rfl
  | txReadData _ _ => rfl
  | txWriteEnable => rfl
  | txSectorErase _ => rfl
  | txUniqueId => rfl
  | txBlock32Erase _ => rfl
  | txBlock64Erase _ => rfl
  | txChipErase => rfl
  | txEnableReset => rfl
  | txPowerDown => rfl
  | txReleasePowerDown => rfl
  | txReset => rfl
  | _ => cases h

/-- A frame that answers a next state was selected, and its transaction is one of these (or it could not be encoded). -/
theorem exec_frame_next {i : Instr} {s t : State} (hi : i.request? = none) (h : exec i s = .next t) :
    s.phase ≠ .faulted ∧ s.selected = some i ∧
      ((∃ f, txBytes s.params i = .error f ∧ t = s.recordFault f) ∨
       (∃ out, txBytes s.params i = .ok out ∧
        ((∃ received, s.xferAnswer = .ok received ∧ received.length = out.length ∧
            t = txOk s.phase i received ((s.counted i).afterXfer out)) ∨
         (∃ e, s.xferAnswer = .err e ∧ t = txErr s.phase i e ((s.counted i).afterXfer out)) ∨
         (∃ received, s.xferAnswer = .ok received ∧ received.length ≠ out.length ∧
            t = ((s.counted i).afterXfer out).recordFault .transportContract)))) := by
  rw [exec_frame hi] at h
  obtain ⟨hf, hs, hcase⟩ := State.send_next h
  refine ⟨hf, hs, ?_⟩
  rcases hcase with ⟨f, hb, rfl⟩ | ⟨out, hb, ht⟩
  · have hr : i ≠ .txReadStatusRegister1 := by
      rintro rfl
      cases hb
    exact .inl ⟨f, hb, by rw [State.counted_other hr]⟩
  · refine .inr ⟨out, hb, ?_⟩
    rcases State.xfer_cases (s.counted i) out (txOk s.phase i) (txErr s.phase i) with ⟨r, h1, h2, h3⟩ | ⟨e, h1, h2⟩ | ⟨r, h1, h2, h3⟩
    · exact .inl ⟨r, h1, h2, ht.trans h3⟩
    · exact .inr (.inl ⟨e, h1, ht.trans h2⟩)
    · exact .inr (.inr ⟨r, h1, h2, ht.trans h3⟩)

/-- A selected frame that can be encoded answers a next state: its transaction. -/
theorem exec_frame_selected {i : Instr} {s : State} {out : List Byte} (hf : s.phase ≠ .faulted)
    (hs : s.selected = some i) (hb : txBytes s.params i = .ok out) :
    exec i s = .next ((s.counted i).xfer out (txOk s.phase i) (txErr s.phase i)) := by
  rw [exec_frame (State.selected_isFrame hs)]
  exact State.send_ok hf hs hb

/-- A selected frame whose transaction answers Ok with as many bytes as were sent. -/
theorem exec_frame_ok {i : Instr} {s : State} {out received : List Byte} (hf : s.phase ≠ .faulted)
    (hs : s.selected = some i) (hb : txBytes s.params i = .ok out) (hr : s.xferAnswer = .ok received)
    (hl : received.length = out.length) : exec i s = .next (txOk s.phase i received ((s.counted i).afterXfer out)) := by
  rw [exec_frame_selected hf hs hb, State.xfer_ok (s := s.counted i) hr hl]

/-- A selected frame whose transaction answers Err. -/
theorem exec_frame_err {i : Instr} {s : State} {out : List Byte} {e : TransportErr} (hf : s.phase ≠ .faulted)
    (hs : s.selected = some i) (hb : txBytes s.params i = .ok out) (hr : s.xferAnswer = .err e) :
    exec i s = .next (txErr s.phase i e ((s.counted i).afterXfer out)) := by
  rw [exec_frame_selected hf hs hb, State.xfer_err (s := s.counted i) hr]

/-- A selected frame whose transaction answers Ok with another number of bytes than were sent. -/
theorem exec_frame_badLength {i : Instr} {s : State} {out received : List Byte} (hf : s.phase ≠ .faulted)
    (hs : s.selected = some i) (hb : txBytes s.params i = .ok out) (hr : s.xferAnswer = .ok received)
    (hl : received.length ≠ out.length) :
    exec i s = .next (((s.counted i).afterXfer out).recordFault .transportContract) := by
  rw [exec_frame_selected hf hs hb, State.xfer_badLength (s := s.counted i) hr hl]

/-- What an Ok of a selected frame does, row by row of R150 and R201: `u` is the state after the transaction `out`, whose answer was
`received`. -/
inductive OkMove (s : State) (out received : List Byte) (u : State) : State → Prop
  | writeEnable (r : Request) (hp : s.phase = .idle) (hr : s.req = some r) (hd : r.destructive = true) (ho : out = [0x06]) :
      OkMove s out received u (u.goto .writeEnableSent)
  | enableReset (hp : s.phase = .idle) (hr : s.req = some .reset) (ho : out = [0x66]) :
      OkMove s out received u (u.goto .resetEnableSent)
  | power (r : Request) (hp : s.phase = .idle) (hr : s.req = some r)
      (ho : (r = .powerDown ∧ out = [0xB9]) ∨ (r = .releasePowerDown ∧ out = [0xAB])) :
      OkMove s out received u (u.finish .nothing)
  | uniqueId (hp : s.phase = .idle) (hr : s.req = some .uniqueId) (ho : out = 0x4B :: uidTail s.params) :
      OkMove s out received u (u.finish (.bytes (uidBytes s.params received)))
  | read (a : Addr) (n : Nat) (hp : s.phase = .idle) (hr : s.req = some (.read a n))
      (ho : out = 0x03 :: addrBytes a ++ fill s.params n) :
      OkMove s out received u (u.finish (.bytes (readBytes received n)))
  | reset (hp : s.phase = .resetEnableSent) (hr : s.req = some .reset) (ho : out = [0x99]) :
      OkMove s out received u (u.finish .nothing)
  | confirm (r : Request) (hp : s.phase = .writeEnableSent) (hr : s.req = some r) (hd : r.destructive = true)
      (ho : out = [0x05, s.params.fillByte]) : OkMove s out received u (confirmLatch received u)
  | command (r : Request) (hp : s.phase = .confirmed) (hr : s.req = some r) (hd : r.destructive = true) :
      OkMove s out received u (commandSent received u)
  | poll (r : Request) (hp : s.phase = .commandIssued ∨ (s.phase = .pollingBusy ∧ s.variant = .blocking) ∨
        (s.phase = .suspended ∧ s.variant = .suspending)) (hr : s.req = some r) (hd : r.destructive = true)
      (ho : out = [0x05, s.params.fillByte]) : OkMove s out received u (pollBranch received u.countRead)
  | verified (a : Addr) (d : List Byte) (hp : s.phase = .verifying) (hr : s.req = some (.program a d))
      (ho : out = 0x03 :: addrBytes a ++ fill s.params d.length) (hb : readBytes received d.length = d) :
      OkMove s out received u (u.finish .nothing)
  | mismatch (a : Addr) (d : List Byte) (hp : s.phase = .verifying) (hr : s.req = some (.program a d))
      (ho : out = 0x03 :: addrBytes a ++ fill s.params d.length) (hb : readBytes received d.length ≠ d) :
      OkMove s out received u (u.raise .readbackFail)

/-- The bytes of a frame with an address, read back from `txBytes`. -/
theorem frame_ok {op : Operation} {a : Addr} {tail out : List Byte} (ht : op.takesAddress = true)
    (h : frame op a tail = .ok out) : a.toNat < addrLimit ∧ out = opcode op :: addrBytes a ++ tail := by
  by_cases ha : a.toNat < addrLimit
  · rw [frame_addr ht ha] at h
    cases h
    exact ⟨ha, rfl⟩
  · rw [frame_out_of_range ht (Nat.not_lt.mp ha)] at h
    cases h

/-- Everything an Ok of a selected frame can do. -/
theorem txOk_move {s : State} {i : Instr} {out received : List Byte} (hs : s.selected = some i)
    (hb : txBytes s.params i = .ok out) :
    OkMove s out received (s.afterXfer out) (txOk s.phase i received ((s.counted i).afterXfer out)) := by
  rcases State.selected_cases hs with ⟨r, hp, hr, hf⟩ | ⟨hp, hr, rfl⟩ | ⟨r, hp, hr, hc⟩ | ⟨r, hr, hd, rfl, hp⟩ |
      ⟨a, d, hp, hr, rfl⟩
  · cases r with
    | capacity => cases hf
    | model => cases hf
    | setHold _ => cases hf
    | setWp _ => cases hf
    | read a n =>
      cases hf
      obtain ⟨-, rfl⟩ := frame_ok rfl hb
      have := OkMove.read (received := received) (u := s.afterXfer (0x03 :: addrBytes a ++ fill s.params n)) a n hp hr rfl
      simpa [readDone, hp, opcode] using this
    | program a d => cases hf; cases hb; exact .writeEnable _ hp hr rfl rfl
    | erase g a => cases hf; cases hb; exact .writeEnable _ hp hr rfl rfl
    | uniqueId => cases hf; cases hb; exact .uniqueId hp hr rfl
    | powerDown => cases hf; cases hb; exact .power _ hp hr (.inl ⟨rfl, rfl⟩)
    | releasePowerDown => cases hf; cases hb; exact .power _ hp hr (.inr ⟨rfl, rfl⟩)
    | reset => cases hf; cases hb; exact .enableReset hp hr rfl
  · cases hb; exact .reset hp hr rfl
  · have hd : r.destructive = true := by
      cases r <;> first | rfl | cases hc
    have hk : txOk s.phase i = commandSent := by
      unfold commandFrame at hc
      split at hc <;> cases hc <;> rfl
    have hi : i ≠ .txReadStatusRegister1 := by
      rintro rfl
      unfold commandFrame at hc
      split at hc <;> cases hc
    rw [hk, State.counted_other hi]
    exact .command r hp hr hd
  · cases hb
    rcases hp with hp | hp
    · rw [txOk_confirmation hp, State.counted_confirmation hp]
      exact .confirm r hp hr hd rfl
    · have hw : s.phase ≠ .writeEnableSent := by
        rcases hp with h | ⟨h, -⟩ | ⟨h, -⟩ <;> rw [h] <;> decide
      rw [txOk_poll hw, State.counted_poll hw]
      exact .poll r hp hr hd rfl
  · obtain ⟨-, rfl⟩ := frame_ok rfl hb
    by_cases he : readBytes received d.length = d
    · have := OkMove.verified (received := received)
        (u := s.afterXfer (0x03 :: addrBytes a ++ fill s.params d.length)) a d hp hr rfl he
      simpa [readDone, hp, hr, he, opcode] using this
    · have := OkMove.mismatch (received := received)
        (u := s.afterXfer (0x03 :: addrBytes a ++ fill s.params d.length)) a d hp hr rfl he
      simpa [readDone, hp, hr, he, opcode] using this

/-- Everything an Err of a selected frame can do: the failure, and the chip's state unknown exactly from the command on (R155). -/
theorem txErr_move {s : State} {i : Instr} {out : List Byte} {e : TransportErr} (hs : s.selected = some i) :
    txErr s.phase i e ((s.counted i).afterXfer out) = { s.afterXfer out with
      phase := .failed (.transportError e)
      chipStateUnknown := s.chipStateUnknown || s.phase.afterCommand
      statusReads := if s.phase = .commandIssued ∨ s.phase = .pollingBusy ∨ s.phase = .suspended then s.statusReads + 1
        else s.statusReads } := by
  have hk : txErr s.phase i = State.failTransport s.phase.afterCommand := by
    rcases State.selected_cases hs with ⟨r, hp, hr, hf⟩ | ⟨hp, hr, rfl⟩ | ⟨r, hp, hr, hc⟩ | ⟨r, hr, hd, rfl, hp⟩ |
        ⟨a, d, hp, hr, rfl⟩
    · rw [hp]
      cases r <;> cases hf <;> rfl
    · rw [hp]
      rfl
    · rw [hp]
      unfold commandFrame at hc
      split at hc <;> cases hc <;> rfl
    · rcases hp with hp | hp | ⟨hp, -⟩ | ⟨hp, -⟩ <;> rw [hp] <;> rfl
    · rw [hp]
      rfl
  rw [hk, ← State.counted_statusReads hs]
  rfl

/-- Everything a frame that answers a next state can do. -/
theorem exec_frame_move {i : Instr} {s t : State} (hi : i.request? = none) (h : exec i s = .next t) :
    s.phase ≠ .faulted ∧ s.selected = some i ∧
      ((∃ f, txBytes s.params i = .error f ∧ t = s.recordFault f) ∨
       (∃ out, txBytes s.params i = .ok out ∧
        ((∃ received, s.xferAnswer = .ok received ∧ received.length = out.length ∧
            OkMove s out received (s.afterXfer out) t) ∨
         (∃ e, s.xferAnswer = .err e ∧ t = { s.afterXfer out with
            phase := .failed (.transportError e)
            chipStateUnknown := s.chipStateUnknown || s.phase.afterCommand
            statusReads := if s.phase = .commandIssued ∨ s.phase = .pollingBusy ∨ s.phase = .suspended then
              s.statusReads + 1 else s.statusReads }) ∨
         (∃ received, s.xferAnswer = .ok received ∧ received.length ≠ out.length ∧
            t = State.recordFault .transportContract { s.afterXfer out with
              statusReads := if s.phase = .commandIssued ∨ s.phase = .pollingBusy ∨ s.phase = .suspended then
                s.statusReads + 1 else s.statusReads })))) := by
  obtain ⟨hf, hs, hcase⟩ := exec_frame_next hi h
  refine ⟨hf, hs, ?_⟩
  rcases hcase with hcase | ⟨out, hb, ⟨received, h1, h2, rfl⟩ | ⟨e, h1, rfl⟩ | ⟨received, h1, h2, rfl⟩⟩
  · exact .inl hcase
  · exact .inr ⟨out, hb, .inl ⟨received, h1, h2, txOk_move hs hb⟩⟩
  · exact .inr ⟨out, hb, .inr (.inl ⟨e, h1, txErr_move hs⟩)⟩
  · exact .inr ⟨out, hb, .inr (.inr ⟨received, h1, h2, by rw [← State.counted_statusReads hs]; rfl⟩)⟩

/-! ### Requests -/

/-- The first action of an accepted request without a pin. -/
def firstAction : Request → State → Result
  | .capacity => fun t => .next (t.finish (.capacity t.geom.capacity))
  | .model => fun t => .next (t.finish (.geometry t.geom))
  | .read a n => execTxReadData a n
  | .program _ _ => execTxWriteEnable
  | .erase _ _ => execTxWriteEnable
  | .uniqueId => execTxUniqueId
  | .powerDown => execTxPowerDown
  | .releasePowerDown => execTxReleasePowerDown
  | .reset => execTxEnableReset
  | .setHold l => fun t => .next (t.drivePin .hold l)
  | .setWp l => fun t => .next (t.drivePin .wp l)

/-- Every request that needs no pin is one accept step. -/
theorem exec_request {i : Instr} {r : Request} (h : i.request? = some r) (hp : r.usesPin = false) (s : State) :
    exec i s = s.accept r (requestVerdict s.geom s.params r) (firstAction r) := by
  cases i <;> simp only [Instr.request?, Option.some.injEq, reduceCtorEq] at h <;> subst h <;>
    simp only [Request.usesPin, reduceCtorEq] at hp <;> rfl

/-- Every request that needs a pin. -/
theorem exec_pinRequest {i : Instr} {r : Request} (h : i.request? = some r) (hp : r.usesPin = true) (s : State) :
    ∃ p l, exec i s = s.acceptPin p l r ∧ ((p = .hold ∧ r = .setHold l) ∨ (p = .wp ∧ r = .setWp l)) := by
  cases i <;> simp only [Instr.request?, Option.some.injEq, reduceCtorEq] at h <;> subst h <;>
    simp only [Request.usesPin, reduceCtorEq] at hp
  · exact ⟨.hold, _, rfl, .inl ⟨rfl, rfl⟩⟩
  · exact ⟨.wp, _, rfl, .inr ⟨rfl, rfl⟩⟩

/-- The first action of a request that has a first frame is that frame. -/
theorem firstAction_frame {r : Request} {i : Instr} (h : firstFrame r = some i) : firstAction r = exec i := by
  cases r <;> simp [firstFrame] at h <;> subst h <;> rfl

/-- A freshly latched request stands at its first frame. -/
theorem State.latch_selected {s : State} {r : Request} (h : s.phase = .idle) : (s.latch r).selected = firstFrame r := by
  simp [State.selected, h]

/-- Everything a request that answers a next state can do. -/
theorem exec_request_next {i : Instr} {r : Request} {s t : State} (h : i.request? = some r) (hn : exec i s = .next t) :
    (s.phase = .idle ∧ requestVerdict s.geom s.params r = .pass ∧ ∃ f, firstFrame r = some f ∧
      exec f (s.latch r) = .next t) ∨
    (s.phase = .idle ∧ ((r = .capacity ∧ t = (s.latch r).finish (.capacity s.geom.capacity)) ∨
      (r = .model ∧ t = (s.latch r).finish (.geometry s.geom)))) ∨
    (∃ e, s.phase = .idle ∧ requestVerdict s.geom s.params r = .fail e ∧ t = (s.latch r).raise e) ∨
    (∃ f, s.phase = .idle ∧ requestVerdict s.geom s.params r = .fault f ∧ t = (s.latch r).recordFault f) ∨
    (s.phase ≠ .idle ∧ s.phase ≠ .faulted ∧ t = s.recordFault .concurrentUse) ∨
    (s.phase = .idle ∧ s.variant = .suspending ∧ r.usesPin = true ∧ t = s.markRefused .noPins) ∨
    (∃ p l, s.phase = .idle ∧ s.variant = .blocking ∧
      ((p = .hold ∧ r = .setHold l) ∨ (p = .wp ∧ r = .setWp l)) ∧ t = (s.latch r).drivePin p l) := by
  cases hp : r.usesPin with
  | true =>
    obtain ⟨p, l, he, hr⟩ := exec_pinRequest h hp s
    rw [he] at hn
    rcases State.acceptPin_next hn with ⟨h1, h2, h3⟩ | ⟨h1, h2, h3⟩ | h3
    · exact .inr (.inr (.inr (.inr (.inr (.inl ⟨h1, h2, rfl, h3⟩)))))
    · exact .inr (.inr (.inr (.inr (.inr (.inr ⟨p, l, h1, h2, hr, h3⟩)))))
    · exact .inr (.inr (.inr (.inr (.inl h3))))
  | false =>
    rw [exec_request h hp] at hn
    rcases State.accept_next hn with ⟨h1, h2, h3⟩ | ⟨e, h1, h2, h3⟩ | ⟨f, h1, h2, h3⟩ | h3
    · cases hf : firstFrame r with
      | some f => exact .inl ⟨h1, h2, f, rfl, by rw [← firstAction_frame hf]; exact h3⟩
      | none =>
        refine .inr (.inl ⟨h1, ?_⟩)
        cases r <;> simp only [firstFrame, reduceCtorEq] at hf <;> simp only [Request.usesPin, reduceCtorEq] at hp
        · cases h3; exact .inl ⟨rfl, rfl⟩
        · cases h3; exact .inr ⟨rfl, rfl⟩
    · exact .inr (.inr (.inl ⟨e, h1, h2, h3⟩))
    · exact .inr (.inr (.inr (.inl ⟨f, h1, h2, h3⟩)))
    · exact .inr (.inr (.inr (.inr (.inl h3))))

end Sys2Proof.Machine
end

