-- ==== Sys2Proof/Laws/Memory.lean ====
section
/-!
SUPPORT. The memory operations of the reference chip keep the canonical form of its cell list.
-/

namespace Sys2Proof.Machine.Memory

theorem wfAbove_cons {lo : Nat} {c : Host.Cell} {m : List Host.Cell} :
    wfAbove lo (c :: m) = true ↔ (lo ≤ c.1 ∧ c.2 ≠ erased) ∧ wfAbove (c.1 + 1) m = true := by
  simp [wfAbove]

/-- Cells that rise above a bound rise above every lower one. -/
theorem wfAbove_mono {lo hi : Nat} {m : List Host.Cell} (h : lo ≤ hi) (hm : wfAbove hi m = true) :
    wfAbove lo m = true := by
  cases m with
  | nil => rfl
  | cons c m =>
    rw [wfAbove_cons] at hm ⊢
    exact ⟨⟨Nat.le_trans h hm.1.1, hm.1.2⟩, hm.2⟩

/-- Nothing is listed below the bound. -/
theorem read_below {lo a : Nat} {m : List Host.Cell} (h : a < lo) (hm : wfAbove lo m = true) : read m a = erased := by
  induction m generalizing lo with
  | nil => rfl
  | cons c m ih =>
    rw [wfAbove_cons] at hm
    have hc : c.1 ≠ a := by omega
    rw [read, if_neg hc]
    exact ih (Nat.lt_succ_of_lt (Nat.lt_of_lt_of_le h hm.1.1)) hm.2

theorem consCell_wf {lo a : Nat} {b : Byte} {m : List Host.Cell} (h : lo ≤ a) (hm : wfAbove (a + 1) m = true) :
    wfAbove lo (consCell a b m) = true := by
  unfold consCell
  split
  · exact wfAbove_mono (Nat.le_succ_of_le h) hm
  · rename_i hb
    exact wfAbove_cons.mpr ⟨⟨h, hb⟩, hm⟩

theorem write_wfAbove {lo a : Nat} {b : Byte} {m : List Host.Cell} (h : lo ≤ a) (hm : wfAbove lo m = true) :
    wfAbove lo (write m a b) = true := by
  induction m generalizing lo with
  | nil => exact consCell_wf h rfl
  | cons c m ih =>
    have hm' := wfAbove_cons.mp hm
    rw [write]
    split
    · rename_i hlt
      exact consCell_wf h (wfAbove_cons.mpr ⟨⟨hlt, hm'.1.2⟩, hm'.2⟩)
    · split
      · rename_i he
        subst he
        exact consCell_wf h hm'.2
      · exact wfAbove_cons.mpr ⟨hm'.1, ih (by omega) hm'.2⟩

theorem eraseRange_wfAbove {lo a n : Nat} {m : List Host.Cell} (hm : wfAbove lo m = true) :
    wfAbove lo (eraseRange m a n) = true := by
  induction m generalizing lo with
  | nil => rfl
  | cons c m ih =>
    have hm' := wfAbove_cons.mp hm
    have hr := ih hm'.2
    unfold eraseRange at hr ⊢
    rw [List.filter_cons]
    split
    · exact wfAbove_cons.mpr ⟨hm'.1, hr⟩
    · exact wfAbove_mono (Nat.le_succ_of_le hm'.1.1) hr

/-- The empty list is canonical. -/
theorem wf_nil : wf [] = true := rfl

/-- A write keeps the canonical form. -/
theorem write_wf {m : List Host.Cell} (a : Nat) (b : Byte) (hm : wf m = true) : wf (write m a b) = true :=
  write_wfAbove (Nat.zero_le a) hm

/-- An erase keeps the canonical form. -/
theorem eraseRange_wf {m : List Host.Cell} (lo n : Nat) (hm : wf m = true) : wf (eraseRange m lo n) = true :=
  eraseRange_wfAbove hm

end Sys2Proof.Machine.Memory
end

