-- ==== Sys2Proof/Laws/PerInstr.lean ====
section
/-!
SUPPORT. Per instruction: the encoding carries the fixed field of its row of opcode_table.json (R74, R84, R124), the frame or
the record being the table's own interface.
-/

namespace Sys2Proof.Laws.TableWord

/-- The row's "match": byte 0 of a frame, or the code of a request. -/
def code : Instr → Nat
  | .txPageProgram _ _ => 0x02
  | .txReadData _ _ => 0x03
  | .txReadStatusRegister1 => 0x05
  | .txWriteEnable => 0x06
  | .txSectorErase _ => 0x20
  | .txUniqueId => 0x4B
  | .txBlock32Erase _ => 0x52
  | .txBlock64Erase _ => 0xD8
  | .txChipErase => 0xC7
  | .txEnableReset => 0x66
  | .txPowerDown => 0xB9
  | .txReleasePowerDown => 0xAB
  | .txReset => 0x99
  | .capacity => 0x0
  | .model => 0x1
  | .read _ _ => 0x2
  | .program _ _ => 0x3
  | .eraseSector _ => 0x4
  | .eraseB32 _ => 0x5
  | .eraseB64 _ => 0x6
  | .eraseChip _ => 0x7
  | .uniqueId => 0x8
  | .powerDown => 0x9
  | .releasePowerDown => 0xA
  | .reset => 0xB
  | .setHold _ => 0xC
  | .setWp _ => 0xD

/-- The encoding carries the given code at the given interface. -/
def carries (frame : Bool) (k : Nat) : Encoded → Prop
  | .frame (b :: _) => frame = true ∧ b.toNat = k
  | .frame [] => False
  | .request w => frame = false ∧ w.code.toNat = k

/-- What is said of each instruction: well formed, its encoding carries its row's code. -/
def Statement (i : Instr) : Prop := ∀ p : Params, i.wf = true → carries i.request?.isNone (code i) (encode p i)

/-- A frame with an address that fits. -/
theorem carries_addr {op : Operation} {a : Addr} {tail : List Byte} {k : Nat} (ht : op.takesAddress = true)
    (ha : a.toNat < addrLimit) (hk : (opcode op).toNat = k) : carries true k (.ofFrame (frame op a tail)) := by
  rw [frame_addr ht ha]
  exact ⟨rfl, hk⟩

theorem txPageProgram (a : Addr) (d : List Byte) : Statement (.txPageProgram a d) := fun _ h =>
  carries_addr rfl (of_decide_eq_true (Bool.and_eq_true _ _ ▸ h).1) rfl

theorem txReadData (a : Addr) (n : Nat) : Statement (.txReadData a n) := fun _ h => carries_addr rfl (of_decide_eq_true h) rfl

theorem txReadStatusRegister1 : Statement .txReadStatusRegister1 := fun _ _ => ⟨rfl, rfl⟩

theorem txWriteEnable : Statement .txWriteEnable := fun _ _ => ⟨rfl, rfl⟩

theorem txSectorErase (a : Addr) : Statement (.txSectorErase a) := fun _ h => carries_addr rfl (of_decide_eq_true h) rfl

theorem txUniqueId : Statement .txUniqueId := fun _ _ => ⟨rfl, rfl⟩

theorem txBlock32Erase (a : Addr) : Statement (.txBlock32Erase a) := fun _ h => carries_addr rfl (of_decide_eq_true h) rfl

theorem txBlock64Erase (a : Addr) : Statement (.txBlock64Erase a) := fun _ h => carries_addr rfl (of_decide_eq_true h) rfl

theorem txChipErase : Statement .txChipErase := fun _ _ => ⟨rfl, rfl⟩

theorem txEnableReset : Statement .txEnableReset := fun _ _ => ⟨rfl, rfl⟩

theorem txPowerDown : Statement .txPowerDown := fun _ _ => ⟨rfl, rfl⟩

theorem txReleasePowerDown : Statement .txReleasePowerDown := fun _ _ => ⟨rfl, rfl⟩

theorem txReset : Statement .txReset := fun _ _ => ⟨rfl, rfl⟩

theorem capacity : Statement .capacity := fun _ _ => ⟨rfl, rfl⟩

theorem model : Statement .model := fun _ _ => ⟨rfl, rfl⟩

theorem read (a : Addr) (n : Nat) : Statement (.read a n) := fun _ _ => ⟨rfl, rfl⟩

theorem program (a : Addr) (d : List Byte) : Statement (.program a d) := fun _ _ => ⟨rfl, rfl⟩

theorem eraseSector (a : Addr) : Statement (.eraseSector a) := fun _ _ => ⟨rfl, rfl⟩

theorem eraseB32 (a : Addr) : Statement (.eraseB32 a) := fun _ _ => ⟨rfl, rfl⟩

theorem eraseB64 (a : Addr) : Statement (.eraseB64 a) := fun _ _ => ⟨rfl, rfl⟩

theorem eraseChip (a : Addr) : Statement (.eraseChip a) := fun _ _ => ⟨rfl, rfl⟩

theorem uniqueId : Statement .uniqueId := fun _ _ => ⟨rfl, rfl⟩

theorem powerDown : Statement .powerDown := fun _ _ => ⟨rfl, rfl⟩

theorem releasePowerDown : Statement .releasePowerDown := fun _ _ => ⟨rfl, rfl⟩

theorem reset : Statement .reset := fun _ _ => ⟨rfl, rfl⟩

theorem setHold (l : Level) : Statement (.setHold l) := fun _ _ => ⟨rfl, rfl⟩

theorem setWp (l : Level) : Statement (.setWp l) := fun _ _ => ⟨rfl, rfl⟩

end Sys2Proof.Laws.TableWord
end

