-- ==== Sys2Proof/Laws/Step.lean ====
section
/-!
SUPPORT. What a step can do, said once (`step_next`), and when it does it.
-/

namespace Sys2Proof.Machine

variable {s t : State}

/-- The transmission of a state that selects a frame. -/
theorem State.transmission_eq {i : Instr} : s.transmission = .transmit i ↔ s.selected = some i := by
  unfold State.transmission
  split
  · simp_all
  · simp_all

/-- A step that answers a next state performs one of these actions. -/
theorem step_next (h : step s = .next t) :
    (s.action = .wait ∧ t = s) ∨
    (∃ k, s.action = .refuse k ∧ t = s.consume.markRefused k) ∨
    (∃ i, s.action = .accept i ∧ exec i s.consume = .next t) ∨
    (s.action = .concurrent ∧ t = s.concurrentUse) ∨
    (∃ i, s.action = .transmit i ∧ exec i s = .next t) ∨
    (s.action = .yield ∧ t = s.yield) ∨
    (s.action = .resume ∧ exec .txReadStatusRegister1 s.resume = .next t) ∨
    (s.action = .cancel ∧ t = s.cancel) ∨
    (s.action = .respond ∧ t = s.deliver) := by
  unfold step at h
  split at h <;> rename_i ha
  · cases h
  · cases h; exact .inl ⟨ha, rfl⟩
  · cases h; exact .inr (.inl ⟨_, ha, rfl⟩)
  · exact .inr (.inr (.inl ⟨_, ha, h⟩))
  · cases h; exact .inr (.inr (.inr (.inl ⟨ha, rfl⟩)))
  · exact .inr (.inr (.inr (.inr (.inl ⟨_, ha, h⟩))))
  · cases h; exact .inr (.inr (.inr (.inr (.inr (.inl ⟨ha, rfl⟩)))))
  · exact .inr (.inr (.inr (.inr (.inr (.inr (.inl ⟨ha, h⟩))))))
  · cases h; exact .inr (.inr (.inr (.inr (.inr (.inr (.inr (.inl ⟨ha, rfl⟩)))))))
  · cases h; exact .inr (.inr (.inr (.inr (.inr (.inr (.inr (.inr ⟨ha, rfl⟩)))))))
  · cases h

/-- A request is accepted only at Idle, with none latched, and what stands at the port decodes to it. -/
theorem State.action_accept {i : Instr} (h : s.action = .accept i) :
    s.phase = .idle ∧ s.req = none ∧ ∃ x, s.presented = some x ∧ decodeInput s.variant x = .ok i := by
  unfold State.action State.idleAction State.transmission State.pollingAction State.suspendedAction State.transmission at h
  grind

/-- A frame is transmitted only where the tables select it. -/
theorem State.action_transmit {i : Instr} (h : s.action = .transmit i) : s.selected = some i ∧ s.phase ≠ .faulted := by
  unfold State.action State.idleAction State.transmission State.pollingAction State.suspendedAction State.transmission at h
  grind

theorem State.action_yield (h : s.action = .yield) :
    s.phase = .pollingBusy ∧ s.variant = .suspending ∧ ∃ r, s.req = some r ∧ r.destructive = true := by
  unfold State.action State.idleAction State.transmission State.pollingAction State.suspendedAction State.transmission at h
  grind

theorem State.action_resume (h : s.action = .resume) :
    s.phase = .suspended ∧ s.selected = some .txReadStatusRegister1 ∧ ∃ q, s.env.schedIn = .resume :: q := by
  have hs : s.phase = .suspended ∧ (∃ i, s.selected = some i) ∧ ∃ q, s.env.schedIn = .resume :: q := by
    unfold State.action State.idleAction State.transmission State.pollingAction State.suspendedAction State.transmission at h
    grind
  obtain ⟨hp, ⟨i, hi⟩, hq⟩ := hs
  refine ⟨hp, ?_, hq⟩
  rcases State.selected_cases hi with ⟨r, h1, -⟩ | ⟨h1, -⟩ | ⟨r, h1, -⟩ | ⟨r, -, -, h1, -⟩ | ⟨a, d, h1, -⟩ <;>
    simp_all

theorem State.action_cancel (h : s.action = .cancel) :
    s.phase = .suspended ∧ s.variant = .suspending ∧ (∃ r, s.req = some r ∧ r.destructive = true) ∧
      ∃ q, s.env.schedIn = .cancel :: q := by
  have hs : s.phase = .suspended ∧ (∃ i, s.selected = some i) ∧ ∃ q, s.env.schedIn = .cancel :: q := by
    unfold State.action State.idleAction State.transmission State.pollingAction State.suspendedAction State.transmission at h
    grind
  obtain ⟨hp, ⟨i, hi⟩, hq⟩ := hs
  refine ⟨hp, ?_, ?_, hq⟩ <;>
    rcases State.selected_cases hi with ⟨r, h1, -⟩ | ⟨h1, -⟩ | ⟨r, h1, -⟩ | ⟨r, hr, hd, -, h1⟩ | ⟨a, d, h1, -⟩ <;>
    simp_all

theorem State.action_respond (h : s.action = .respond) : s.phase = .complete ∨ ∃ e, s.phase = .failed e := by
  unfold State.action State.idleAction State.transmission State.pollingAction State.suspendedAction State.transmission at h
  grind

theorem State.action_concurrent (h : s.action = .concurrent) :
    s.phase ≠ .idle ∧ s.phase ≠ .faulted ∧ ∃ x, s.env.port = some x := by
  rw [← Option.isSome_iff_exists]
  unfold State.action State.idleAction State.transmission State.pollingAction State.suspendedAction State.transmission at h
  grind

theorem State.action_refuse {k : Refused} (h : s.action = .refuse k) :
    s.phase = .idle ∧ s.req = none ∧ ∃ x, s.presented = some x ∧ decodeInput s.variant x = .error k := by
  unfold State.action State.idleAction State.transmission State.pollingAction State.suspendedAction State.transmission at h
  grind

theorem State.action_wait (h : s.action = .wait) :
    (s.phase = .idle ∧ s.req = none ∧ s.presented = none) ∨ (s.phase = .suspended ∧ s.env.schedIn = []) := by
  unfold State.action State.idleAction State.transmission State.pollingAction State.suspendedAction State.transmission at h
  grind

/-! ### Every step, inverted once -/

/-- The state a step's transaction is made from: the state itself, a request just latched, or a poll just resumed. -/
inductive FrameBase (s : State) : State → Prop
  | transmit (hf : s.phase ≠ .faulted) : FrameBase s s
  | accept (r : Request) (hp : s.phase = .idle) (hr : s.req = none)
      (hv : requestVerdict s.geom s.params r = .pass) : FrameBase s (s.consume.latch r)
  | resume (hp : s.phase = .suspended) (hv : s.variant = .suspending) : FrameBase s s.resume

/-- Everything a step that answers a next state can do. -/
inductive StepMove (s : State) : State → Prop
  | wait (hp : (s.phase = .idle ∧ s.req = none ∧ s.presented = none) ∨ (s.phase = .suspended ∧ s.env.schedIn = [])) :
      StepMove s s
  | refuse (k : Refused) (hp : s.phase = .idle) (hr : s.req = none) : StepMove s (s.consume.markRefused k)
  | concurrent (hp : s.phase ≠ .idle) (hf : s.phase ≠ .faulted) : StepMove s (s.consume.recordFault .concurrentUse)
  | answer (r : Request) (pl : Payload) (hp : s.phase = .idle) (hr : s.req = none)
      (hc : (r = .capacity ∧ pl = .capacity s.geom.capacity) ∨ (r = .model ∧ pl = .geometry s.geom)) :
      StepMove s ((s.consume.latch r).finish pl)
  | fail (r : Request) (e : BlockError) (hp : s.phase = .idle) (hr : s.req = none)
      (hv : requestVerdict s.geom s.params r = .fail e) : StepMove s ((s.consume.latch r).raise e)
  | reject (r : Request) (f : ContractFault) (hp : s.phase = .idle) (hr : s.req = none)
      (hv : requestVerdict s.geom s.params r = .fault f) : StepMove s ((s.consume.latch r).recordFault f)
  | pin (r : Request) (p : Pin) (l : Level) (hp : s.phase = .idle) (hr : s.req = none) (hv : s.variant = .blocking)
      (hc : (p = .hold ∧ r = .setHold l) ∨ (p = .wp ∧ r = .setWp l)) : StepMove s ((s.consume.latch r).drivePin p l)
  | yield (r : Request) (hp : s.phase = .pollingBusy) (hv : s.variant = .suspending) (hr : s.req = some r)
      (hd : r.destructive = true) : StepMove s s.yield
  | cancel (r : Request) (hp : s.phase = .suspended) (hv : s.variant = .suspending) (hr : s.req = some r)
      (hd : r.destructive = true) : StepMove s s.cancel
  | respond (hp : s.phase = .complete ∨ ∃ e, s.phase = .failed e) : StepMove s s.deliver
  | unencodable (u : State) (i : Instr) (f : ContractFault) (hb : FrameBase s u) (hs : u.selected = some i)
      (ho : txBytes u.params i = .error f) : StepMove s (u.recordFault f)
  | badLength (u : State) (i : Instr) (out received : List Byte) (hb : FrameBase s u) (hs : u.selected = some i)
      (ho : txBytes u.params i = .ok out) (hx : u.xferAnswer = .ok received) (hl : received.length ≠ out.length) :
      StepMove s (State.recordFault .transportContract { u.afterXfer out with
        statusReads := if u.phase = .commandIssued ∨ u.phase = .pollingBusy ∨ u.phase = .suspended then
          u.statusReads + 1 else u.statusReads })
  | err (u : State) (i : Instr) (out : List Byte) (e : TransportErr) (hb : FrameBase s u) (hs : u.selected = some i)
      (ho : txBytes u.params i = .ok out) (hx : u.xferAnswer = .err e) :
      StepMove s { u.afterXfer out with
        phase := .failed (.transportError e)
        chipStateUnknown := u.chipStateUnknown || u.phase.afterCommand
        statusReads := if u.phase = .commandIssued ∨ u.phase = .pollingBusy ∨ u.phase = .suspended then
          u.statusReads + 1 else u.statusReads }
  | ok (u t : State) (i : Instr) (out received : List Byte) (hb : FrameBase s u) (hs : u.selected = some i)
      (ho : txBytes u.params i = .ok out) (hx : u.xferAnswer = .ok received) (hl : received.length = out.length)
      (hm : OkMove u out received (u.afterXfer out) t) : StepMove s t

/-- A frame executed at the base of a step. -/
theorem StepMove.ofFrame {u : State} {i : Instr} (hb : FrameBase s u) (hi : i.request? = none)
    (h : exec i u = .next t) : StepMove s t := by
  obtain ⟨-, hs, ⟨f, ho, rfl⟩ | ⟨out, ho, ⟨received, hx, hl, hm⟩ | ⟨e, hx, rfl⟩ | ⟨received, hx, hl, rfl⟩⟩⟩ :=
    exec_frame_move hi h
  · exact .unencodable u i f hb hs ho
  · exact .ok u t i out received hb hs ho hx hl hm
  · exact .err u i out e hb hs ho hx
  · exact .badLength u i out received hb hs ho hx hl

theorem State.consume_eq (s : State) : ∃ e, s.consume = { s with env := e } := by
  unfold State.consume
  split <;> exact ⟨_, rfl⟩

/-- What a step can do, guards included. -/
theorem step_move (h : step s = .next t) : StepMove s t := by
  rcases step_next h with ⟨ha, rfl⟩ | ⟨k, ha, rfl⟩ | ⟨i, ha, hn⟩ | ⟨ha, rfl⟩ | ⟨i, ha, hn⟩ | ⟨ha, rfl⟩ | ⟨ha, hn⟩ |
      ⟨ha, rfl⟩ | ⟨ha, rfl⟩
  · exact .wait (State.action_wait ha)
  · obtain ⟨hp, hr, -⟩ := State.action_refuse ha
    exact .refuse k hp hr
  · obtain ⟨hp, hr, -⟩ := State.action_accept ha
    obtain ⟨e, he⟩ := s.consume_eq
    have hp' : s.consume.phase = .idle := by rw [he]; exact hp
    have hg : s.consume.geom = s.geom ∧ s.consume.params = s.params ∧ s.consume.variant = s.variant := by
      rw [he]; exact ⟨rfl, rfl, rfl⟩
    cases hi : i.request? with
    | none =>
      have hs := (exec_frame_next hi hn).2.1
      rw [he] at hs
      simp [State.selected, hp, hr] at hs
    | some r =>
      rcases exec_request_next hi hn with ⟨-, hv, f, hf, hn⟩ | ⟨-, ⟨rfl, rfl⟩ | ⟨rfl, rfl⟩⟩ | ⟨e, -, hv, rfl⟩ |
          ⟨f, -, hv, rfl⟩ | ⟨hx, -⟩ | ⟨-, -, -, rfl⟩ | ⟨p, l, -, hv, hc, rfl⟩
      · rw [hg.1, hg.2.1] at hv
        refine .ofFrame (.accept r hp hr hv) ?_ hn
        cases r <;> cases hf <;> rfl
      · rw [hg.1]; exact .answer _ _ hp hr (.inl ⟨rfl, rfl⟩)
      · rw [hg.1]; exact .answer _ _ hp hr (.inr ⟨rfl, rfl⟩)
      · rw [hg.1, hg.2.1] at hv; exact .fail r e hp hr hv
      · rw [hg.1, hg.2.1] at hv; exact .reject r f hp hr hv
      · exact absurd hp' hx
      · exact .refuse _ hp hr
      · exact .pin r p l hp hr (hg.2.2.symm.trans hv) hc
  · obtain ⟨hp, hf, -⟩ := State.action_concurrent ha
    exact .concurrent hp hf
  · obtain ⟨hs, hf⟩ := State.action_transmit ha
    exact .ofFrame (.transmit hf) (State.selected_isFrame hs) hn
  · obtain ⟨hp, hv, r, hr, hd⟩ := State.action_yield ha
    exact .yield r hp hv hr hd
  · obtain ⟨hp, hs, -⟩ := State.action_resume ha
    have hv : s.variant = .suspending := by
      rcases State.selected_cases hs with ⟨r, h1, -⟩ | ⟨h1, -⟩ | ⟨r, h1, -⟩ | ⟨r, -, -, -, h1⟩ | ⟨a, d, h1, -⟩ <;>
        simp_all
    exact .ofFrame (.resume hp hv) rfl hn
  · obtain ⟨hp, hv, ⟨r, hr, hd⟩, -⟩ := State.action_cancel ha
    exact .cancel r hp hv hr hd
  · exact .respond (State.action_respond ha)

/-! ### Runs -/

/-- A run of one step more. -/
theorem run_succ {n : Nat} (h : step s = .next t) : run (n + 1) s = run n t := by
  rw [run, h]

/-- A run goes on where its first part ended. -/
theorem run_add {m n : Nat} {u : State} (h : run m s = .next u) : run (m + n) s = run n u := by
  induction m generalizing s with
  | zero =>
    cases h
    rw [Nat.zero_add]
  | succ m ih =>
    cases hs : step s with
    | next t =>
      rw [run_succ hs] at h
      rw [Nat.succ_add, run_succ hs]
      exact ih h
    | fault r => rw [run, hs] at h; cases h
    | refused r => rw [run, hs] at h; cases h

end Sys2Proof.Machine
end

