-- ==== Sys2Proof/Tests/Slice0.lean ====
section
/-!
SUPPORT. The model's own tests: the WellFormed checks, a decoded word for every constructor, one step of every instruction, and a
witness for every statement that has hypotheses. Expected values are written out from the spec's encodings (30_encoding.md R70,
R84; 41_encoder.md R125 to R137) and its vectors (95_test_vectors.md, named V-…), never from the model.
-/

namespace Sys2Proof.Tests

open Sys2Proof Sys2Proof.Machine

/-! ### WellFormed refuses -/

theorem test_wf_pageProgram_address : (Instr.txPageProgram 0x1000000 []).wf = false := by decide
theorem test_wf_pageProgram_data : (Instr.txPageProgram 0 (List.replicate 257 0)).wf = false := by
  rw [Instr.wf, List.length_replicate]; decide
theorem test_wf_pageProgram_full_page : (Instr.txPageProgram 0xFFFFFF (List.replicate 256 0)).wf = true := by
  rw [Instr.wf, List.length_replicate]; decide
theorem test_wf_readData_address : (Instr.txReadData 0x1000000 0).wf = false := by decide
theorem test_wf_sectorErase_address : (Instr.txSectorErase 0x1000000).wf = false := by decide
theorem test_wf_block32Erase_address : (Instr.txBlock32Erase 0xFFFFFFFF).wf = false := by decide
theorem test_wf_block64Erase_address : (Instr.txBlock64Erase 0x1000000).wf = false := by decide

/-! ### Decoding: one word for each constructor -/

/-- The parameters of 95_test_vectors.md: FILL_BYTE 0x00, WEL_BIT 1, UID_LEN 8; the OPEN ones at one value each. -/
def params : Params where
  fillByte := 0x00
  welBit := 1
  uidLen := 8
  boundaryTooLong := .outOfBounds
  boundaryCrossing := .notAligned
  programChecksCapacity := true
  eraseChecksCapacity := true

/-- The same with both capacity checks off. -/
def paramsOff : Params := { params with programChecksCapacity := false, eraseChecksCapacity := false }

/-- The instruction a frame is. -/
def frameOf (bytes : List Byte) : Option Instr := (decodeFrame params bytes).toOption

/-- The request a record is. -/
def requestOf (v : Variant) (c : Code) (a : Addr) (n : Nat) (d : List Byte) (l : Level) : Except Refused Instr :=
  decodeRequest v ⟨c, a, n, d, l⟩

/-- The request a line is. -/
def lineOf (line : String) : Option Instr := (decodeText .blocking line.toList).toOption

-- ADDR_WDATA: 02, A[23:16], A[15:8], A[7:0], data
theorem test_decode_pageProgram :
    frameOf [0x02, 0x00, 0xAB, 0xCD, 0x5A, 0xA5] = some (.txPageProgram 0x00ABCD [0x5A, 0xA5]) := by decide
-- ADDR_RDATA: 03, address, fill (V-E2)
theorem test_decode_readData : frameOf [0x03, 0x12, 0x34, 0x56, 0x00, 0x00] = some (.txReadData 0x123456 2) := by decide
theorem test_decode_readData_not_fill : frameOf [0x03, 0x12, 0x34, 0x56, 0x01] = none := by decide
theorem test_decode_readStatusRegister1 : frameOf [0x05, 0x00] = some .txReadStatusRegister1 := by decide
theorem test_decode_writeEnable : frameOf [0x06] = some .txWriteEnable := by decide
theorem test_decode_writeEnable_long : frameOf [0x06, 0x00] = none := by decide
theorem test_decode_sectorErase : frameOf [0x20, 0x01, 0x02, 0x03] = some (.txSectorErase 0x010203) := by decide
theorem test_decode_uniqueId : frameOf (0x4B :: List.replicate 12 0x00) = some .txUniqueId := by decide
theorem test_decode_block32Erase : frameOf [0x52, 0x00, 0x80, 0x00] = some (.txBlock32Erase 0x008000) := by decide
theorem test_decode_block64Erase : frameOf [0xD8, 0x3F, 0x00, 0x00] = some (.txBlock64Erase 0x3F0000) := by decide
theorem test_decode_chipErase : frameOf [0xC7] = some .txChipErase := by decide
theorem test_decode_enableReset : frameOf [0x66] = some .txEnableReset := by decide
theorem test_decode_powerDown_frame : frameOf [0xB9] = some .txPowerDown := by decide
theorem test_decode_releasePowerDown_frame : frameOf [0xAB] = some .txReleasePowerDown := by decide
theorem test_decode_reset_frame : frameOf [0x99] = some .txReset := by decide
theorem test_decode_unused_opcode : frameOf [0x0B, 0, 0, 0] = none := by decide
theorem test_decode_no_byte : frameOf [] = none := by decide

theorem test_decode_capacity : requestOf .blocking 0x0 0 0 [] .low = .ok .capacity := by rfl
theorem test_decode_model : requestOf .suspending 0x1 0 0 [] .low = .ok .model := by rfl
theorem test_decode_read : requestOf .blocking 0x2 0x3FFFFE 2 [] .low = .ok (.read 0x3FFFFE 2) := by rfl
theorem test_decode_program : requestOf .blocking 0x3 0x10 0 [0xDE, 0xAD] .low = .ok (.program 0x10 [0xDE, 0xAD]) := by rfl
theorem test_decode_eraseSector : requestOf .suspending 0x4 0x1000 0 [] .low = .ok (.eraseSector 0x1000) := by rfl
theorem test_decode_eraseB32 : requestOf .blocking 0x5 0x8000 0 [] .low = .ok (.eraseB32 0x8000) := by rfl
theorem test_decode_eraseB64 : requestOf .blocking 0x6 0x3F0000 0 [] .low = .ok (.eraseB64 0x3F0000) := by rfl
theorem test_decode_eraseChip : requestOf .blocking 0x7 0xFFFFFFFF 0 [] .low = .ok (.eraseChip 0xFFFFFFFF) := by rfl
theorem test_decode_uniqueId_request : requestOf .blocking 0x8 0 0 [] .low = .ok .uniqueId := by rfl
theorem test_decode_powerDown : requestOf .suspending 0x9 0 0 [] .low = .ok .powerDown := by rfl
theorem test_decode_releasePowerDown : requestOf .blocking 0xA 0 0 [] .low = .ok .releasePowerDown := by rfl
theorem test_decode_reset : requestOf .blocking 0xB 0 0 [] .low = .ok .reset := by rfl
theorem test_decode_setHold : requestOf .blocking 0xC 0 0 [] .high = .ok (.setHold .high) := by rfl
theorem test_decode_setWp : requestOf .blocking 0xD 0 0 [] .low = .ok (.setWp .low) := by rfl
-- V-N12, V-N13
theorem test_decode_setHold_suspending : requestOf .suspending 0xC 0 0 [] .low = .error .noPins := by rfl
theorem test_decode_reserved : requestOf .blocking 0xE 0 0 [] .low = .error .reservedCode := by rfl

-- R85, R86: lines of request text
theorem test_text_read : lineOf "read               0x3FFFFE, 2 ; two bytes" = some (.read 0x3FFFFE 2) := by decide
theorem test_text_program : lineOf "program 0x000010, [0xDE, 173]" = some (.program 0x10 [0xDE, 0xAD]) := by decide
theorem test_text_write_empty : lineOf "write 5, []" = some (.program 5 []) := by decide
theorem test_text_erase_alias : lineOf "erase b64, 0x3F0000" = some (.eraseB64 0x3F0000) := by decide
theorem test_text_erase_chip : lineOf "erase.chip 0xFFFFFFFF" = some (.eraseChip 0xFFFFFFFF) := by decide
theorem test_text_set_hold : lineOf "set_hold low" = some (.setHold .low) := by decide
-- V-N14
theorem test_text_unknown : decodeText .blocking "erase.page 0x0".toList = .error .badText := by rfl
theorem test_text_byte_too_large : lineOf "program 0, [256]" = none := by decide

-- the host's numbering of a table word: bits 7..0 are byte 0
theorem test_tableWord_sectorErase : decodeTableWord 8 0x20 = some (.txSectorErase 0) := by decide
theorem test_tableWord_block64Erase_bytes : decodeTableWord 32 0x00003FD8 = some (.txBlock64Erase 0x3F0000) := by decide
theorem test_tableWord_set_wp : decodeTableWord 8 0xD = some (.setWp .low) := by decide

/-! ### One step of every instruction -/

/-- A block just constructed (R272) over GEOM_4M. -/
def block (v : Variant) : State := State.constructed v Config.geom4M true params

/-- The block with the next answers of the transport. -/
def fed (answers : List XferResult) (s : State) : State := { s with env := { s.env with xferIn := answers } }

/-- The block in the middle of a request. -/
def amid (p : Phase) (r : Request) (s : State) : State := { s with phase := p, req := some r }

/-- The block with the capacity checks off. -/
def unchecked (s : State) : State := { s with params := paramsOff }

/-- The next state of a step, if there is one. -/
def after : Result → Option State
  | .next s => some s
  | _ => none

/-- The phase after a step. -/
def phaseAfter (r : Result) : Option Phase := (after r).map State.phase

/-- The phase, the payload and the last event after a step. -/
def seen (r : Result) : Option (Phase × Option Payload × Option Event) :=
  (after r).map fun t => (t.phase, t.result, t.trace.getLast?)

/-- A transport error. -/
def te : TransportErr := ⟨7⟩

/-- A pin error. -/
def pe : PinErr := ⟨9⟩

/-- The command frame of the protocol vectors, program 0x000010 [0xDE, 0xAD]. -/
def prog : Request := .program 0x000010 [0xDE, 0xAD]

-- V-N1 (on GEOM_4M: 4194304), V-N2
theorem test_capacity : seen (exec .capacity (block .blocking)) =
    some (.complete, some (.capacity 4194304), some (.pin .wp .high .ok)) := by decide
theorem test_model : seen (exec .model (block .suspending)) =
    some (.complete, some (.geometry ⟨256, 16384⟩), none) := by decide
-- V-RD2
theorem test_read : seen (exec (.read 0x3FFFFE 2) (fed [.ok [1, 2, 3, 4, 0x5A, 0xA5]] (block .blocking))) =
    some (.complete, some (.bytes [0x5A, 0xA5]),
      some (.tx [0x03, 0x3F, 0xFF, 0xFE, 0x00, 0x00] (.ok [1, 2, 3, 4, 0x5A, 0xA5]))) := by decide
-- V-RD5: the sum is exact
theorem test_read_no_wrap : seen (exec (.read 0xFFFFFFFF 1) (block .suspending)) = some (.failed .outOfBounds, none, none) := by
  decide
-- V-P1
theorem test_program : seen (exec (.program 0x0000F0 (List.replicate 16 0)) (fed [.ok [0xFF]] (block .blocking))) =
    some (.writeEnableSent, none, some (.tx [0x06] (.ok [0xFF]))) := by decide
-- V-P10
theorem test_program_range : (after (exec (.program 0x1000000 [0xAA]) (unchecked (block .suspending)))).map
    (fun t => (t.phase, t.faults, t.trace)) = some (.faulted, [.encoderAddressRange 0x1000000], []) := by decide
-- V-X1
theorem test_eraseSector : seen (exec (.eraseSector 0x001000) (fed [.ok [0xFF]] (block .blocking))) =
    some (.writeEnableSent, none, some (.tx [0x06] (.ok [0xFF]))) := by decide
-- V-X9: E1 before E2
theorem test_eraseSector_order : phaseAfter (exec (.eraseSector 0x400800) (block .blocking)) = some (.failed .notAligned) := by
  decide
-- V-X4, V-X3
theorem test_eraseB32 : phaseAfter (exec (.eraseB32 0x008000) (fed [.ok [0]] (block .blocking))) = some .writeEnableSent := by
  decide
theorem test_eraseB32_notAligned : phaseAfter (exec (.eraseB32 0x004000) (block .blocking)) = some (.failed .notAligned) := by
  decide
-- V-X6, V-X5
theorem test_eraseB64 : phaseAfter (exec (.eraseB64 0x3F0000) (fed [.ok [0]] (block .blocking))) = some .writeEnableSent := by
  decide
theorem test_eraseB64_notAligned : phaseAfter (exec (.eraseB64 0x008000) (block .blocking)) = some (.failed .notAligned) := by
  decide
-- V-X11
theorem test_eraseChip : phaseAfter (exec (.eraseChip 0xFFFFFFFF) (fed [.ok [0]] (block .blocking))) = some .writeEnableSent := by
  decide
-- V-N3
theorem test_uniqueId : seen (exec .uniqueId
      (fed [.ok [0, 0, 0, 0, 0, 0xEF, 0x40, 0x18, 0x00, 0x12, 0x34, 0x56, 0x78]] (block .suspending))) =
    some (.complete, some (.bytes [0xEF, 0x40, 0x18, 0x00, 0x12, 0x34, 0x56, 0x78]),
      some (.tx [0x4B, 0, 0, 0, 0, 0, 0, 0, 0, 0, 0, 0, 0]
        (.ok [0, 0, 0, 0, 0, 0xEF, 0x40, 0x18, 0x00, 0x12, 0x34, 0x56, 0x78]))) := by decide
-- V-N5, V-N6
theorem test_powerDown : seen (exec .powerDown (fed [.ok [0xFF]] (block .blocking))) =
    some (.complete, some .nothing, some (.tx [0xB9] (.ok [0xFF]))) := by decide
theorem test_releasePowerDown : seen (exec .releasePowerDown (fed [.ok [0xFF]] (block .blocking))) =
    some (.complete, some .nothing, some (.tx [0xAB] (.ok [0xFF]))) := by decide
-- V-N8
theorem test_reset : seen (exec .reset (fed [.err te] (block .suspending))) =
    some (.failed (.transportError te), none, some (.tx [0x66] (.err te))) := by decide
-- V-N10, V-N11
theorem test_setHold : (after (exec (.setHold .low) { block .blocking with env := { Env.empty with pinIn := [.ok] } })).map
    (fun t => (t.phase, t.pins, t.trace.getLast?)) =
      some (.complete, some ⟨.low, .high⟩, some (.pin .hold .low .ok)) := by decide
theorem test_setWp : (after (exec (.setWp .high) { block .blocking with env := { Env.empty with pinIn := [.err pe] } })).map
    (fun t => (t.phase, t.pins, t.trace.getLast?)) =
      some (.failed (.pinError pe), some ⟨.high, .unknown⟩, some (.pin .wp .high (.err pe))) := by decide
-- V-P12, V-P18
theorem test_txPageProgram : seen (exec (.txPageProgram 0x000010 [0xDE, 0xAD])
      (fed [.ok [1, 2, 3, 4, 5, 6]] (amid .confirmed prog (block .blocking)))) =
    some (.commandIssued, none, some (.tx [0x02, 0x00, 0x00, 0x10, 0xDE, 0xAD] (.ok [1, 2, 3, 4, 5, 6]))) := by decide
theorem test_txPageProgram_error : (after (exec (.txPageProgram 0x000010 [0xDE, 0xAD])
      (fed [.err te] (amid .confirmed prog (block .blocking))))).map (fun t => (t.phase, t.chipStateUnknown)) =
    some (.failed (.transportError te), true) := by decide
-- V-P20, V-P21
theorem test_txReadData : phaseAfter (exec (.txReadData 0x000010 2)
      (fed [.ok [0, 0, 0, 0, 0xDE, 0xAD]] (amid .verifying prog (block .blocking)))) = some .complete := by decide
theorem test_txReadData_mismatch : seen (exec (.txReadData 0x000010 2)
      (fed [.ok [0, 0, 0, 0, 0xDE, 0xAC]] (amid .verifying prog (block .blocking)))) =
    some (.failed .readbackFail, none,
      some (.tx [0x03, 0x00, 0x00, 0x10, 0x00, 0x00] (.ok [0, 0, 0, 0, 0xDE, 0xAC]))) := by decide
-- V-P15 (SR1 0x01 at the confirmation: BUSY alone), V-P13 (SR1 0x03 in the poll)
theorem test_txReadStatusRegister1_confirm : phaseAfter (exec .txReadStatusRegister1
      (fed [.ok [0xFF, 0x01]] (amid .writeEnableSent prog (block .blocking)))) = some (.failed .writeEnableFail) := by decide
theorem test_txReadStatusRegister1_poll : (after (exec .txReadStatusRegister1
      (fed [.ok [0xFF, 0x03]] (amid .commandIssued prog (block .suspending))))).map (fun t => (t.phase, t.statusReads)) =
    some (.pollingBusy, 1) := by decide
theorem test_txWriteEnable : phaseAfter (exec .txWriteEnable (fed [.ok [0]] (amid .idle prog (block .blocking)))) =
    some .writeEnableSent := by decide
theorem test_txSectorErase : seen (exec (.txSectorErase 0x001000)
      (fed [.ok [9, 9, 9, 9]] (amid .confirmed (.erase .sector 0x001000) (block .blocking)))) =
    some (.commandIssued, none, some (.tx [0x20, 0x00, 0x10, 0x00] (.ok [9, 9, 9, 9]))) := by decide
-- V-RD10's fault, at another frame
theorem test_txUniqueId_length : (after (exec .txUniqueId (fed [.ok [0]] (amid .idle .uniqueId (block .blocking))))).map
    (fun t => (t.phase, t.faults)) = some (.faulted, [.transportContract]) := by decide
theorem test_txBlock32Erase : seen (exec (.txBlock32Erase 0x008000)
      (fed [.ok [9, 9, 9, 9]] (amid .confirmed (.erase .block32K 0x008000) (block .blocking)))) =
    some (.commandIssued, none, some (.tx [0x52, 0x00, 0x80, 0x00] (.ok [9, 9, 9, 9]))) := by decide
theorem test_txBlock64Erase : seen (exec (.txBlock64Erase 0x3F0000)
      (fed [.ok [9, 9, 9, 9]] (amid .confirmed (.erase .block64K 0x3F0000) (block .blocking)))) =
    some (.commandIssued, none, some (.tx [0xD8, 0x3F, 0x00, 0x00] (.ok [9, 9, 9, 9]))) := by decide
theorem test_txChipErase : seen (exec .txChipErase
      (fed [.ok [9]] (amid .confirmed (.erase .chip 0xFFFFFFFF) (block .blocking)))) =
    some (.commandIssued, none, some (.tx [0xC7] (.ok [9]))) := by decide
theorem test_txEnableReset : phaseAfter (exec .txEnableReset (fed [.ok [0]] (amid .idle .reset (block .blocking)))) =
    some .resetEnableSent := by decide
theorem test_txPowerDown : phaseAfter (exec .txPowerDown (fed [.ok [0]] (amid .idle .powerDown (block .blocking)))) =
    some .complete := by decide
theorem test_txReleasePowerDown : phaseAfter (exec .txReleasePowerDown
      (fed [.ok [0]] (amid .idle .releasePowerDown (block .blocking)))) = some .complete := by decide
-- R33: every status-read transaction of the poll is counted, this one with a response of a wrong length too
theorem test_txReadStatusRegister1_length : (after (exec .txReadStatusRegister1
      (fed [.ok [0xFF]] (amid .pollingBusy prog (block .blocking))))).map (fun t => (t.phase, t.statusReads, t.faults)) =
    some (.faulted, 1, [.transportContract]) := by decide
-- V-N9
theorem test_txReset : (after (exec .txReset (fed [.err te] (amid .resetEnableSent .reset (block .blocking))))).map
    (fun t => (t.phase, t.chipStateUnknown)) = some (.failed (.transportError te), false) := by decide

/-! ### Witnesses: states and operands that meet the hypotheses of each statement, for each of its clauses, at a boundary of its range -/

/-- A block with one request waiting at the serial host. -/
def queued (x : HostInput) (s : State) : State := { s with env := { s.env with hostQueue := [x] } }

/-- A block with a request standing at its port. -/
def ported (x : HostInput) (s : State) : State := { s with env := { s.env with port := some x } }

/-- A block whose scheduler has delivered something. -/
def scheduled (q : List SchedInput) (s : State) : State := { s with env := { s.env with schedIn := q } }

/-- A block with the answer of its next pin write. -/
def pinned (r : PinResult) (s : State) : State := { s with env := { s.env with pinIn := [r] } }

/-- A block over GEOM_16M, whose capacity is 2^24. -/
def wide (v : Variant) : State := State.constructed v Config.geom16M true params

/-- An erase of one sector. -/
def sector : Request := .erase .sector 0x001000

/-- The program request as the host's record. -/
def progRecord : RequestWord := ⟨0x3, 0x000010, 0, [0xDE, 0xAD], .low⟩

theorem witness_EveryWellFormedInstructionDecodesBack :
    (Instr.setHold .high).wf = true ∧ (Variant.blocking = .suspending → (Instr.setHold .high).usesPin = false) ∧
    (Instr.txReadData 0xFFFFFF 256).wf = true ∧ (Instr.txReadData 0xFFFFFF 256).usesPin = false := by decide

theorem witness_FrameDecoderAcceptsOnlyEmittedFrames :
    decodeFrame params [0x03, 0xFF, 0xFF, 0xFF] = .ok (.txReadData 0xFFFFFF 0) ∧
    decodeFrame params [0x02, 0x00, 0x00, 0x00, 0x5A] = .ok (.txPageProgram 0 [0x5A]) := by decide

theorem witness_EncodeFollowsItsPseudocode :
    Operation.pageProgram ∈ [Operation.readData, .pageProgram, .sectorErase, .block32Erase, .block64Erase] ∧
    2 ^ 24 ≤ (0x01000000 : Addr).toNat ∧ (0x00FFFFFF : Addr).toNat < 2 ^ 24 ∧
    Operation.chipErase ∉ [Operation.readData, .pageProgram, .sectorErase, .block32Erase, .block64Erase] := by decide

theorem witness_EncoderLawsHold :
    (0x00FFFFFF : Addr).toNat < 2 ^ 24 ∧ Operation.readData.takesAddress = true ∧ Operation.reset.takesAddress = false ∧
    encodeOp .sectorErase 0x00FFFFFF = encodeOp .sectorErase 0x00FFFFFF ∧ encodeOp .reset 0 = encodeOp .reset 0x00FFFFFF := by
  decide

theorem witness_ValidatorNamesTheFirstFailedCheck :
    (∃ c, (⟨⟨256, 256⟩, some 65535⟩ : GeometryDecl).capacityDecl = some c ∧ c ≠ 256 * 256) ∧
    (⟨⟨256, 256⟩, some 65536⟩ : GeometryDecl).validate = .ok ⟨256, 256⟩ ∧
    (⟨⟨256, 65536⟩, none⟩ : GeometryDecl).validate = .ok ⟨256, 65536⟩ ∧
    (⟨⟨257, 256⟩, none⟩ : GeometryDecl).validate = .error (.geometry .v2) ∧
    (⟨⟨256, 255⟩, none⟩ : GeometryDecl).validate = .error (.geometry .v3) ∧
    (⟨⟨256, 257⟩, none⟩ : GeometryDecl).validate = .error (.geometry .v3) ∧
    (⟨⟨256, 65792⟩, none⟩ : GeometryDecl).validate = .error (.geometry .v4) :=
  ⟨⟨65535, rfl, by decide⟩, by decide, by decide, by decide, by decide, by decide, by decide⟩

theorem witness_AdmittedGeometriesDivideExactly :
    (⟨256, 256⟩ : Geometry).admitted = true ∧ Config.geom16M.admitted = true ∧
    Config.geom16M.gsize .block64K = some 65536 := by decide

theorem witness_Construction : (⟨Config.geom8M, some 8388608⟩ : GeometryDecl).validate = .ok Config.geom8M := by decide

theorem witness_AnExternalActionIsRecorded :
    (fed [.err te] (block .blocking)).env.xferIn = [.err te] ∧
    (pinned (.err pe) (block .blocking)).env.pinIn = [.err pe] := by decide

theorem witness_CapacityAndModelComplete : (block .suspending).phase = .idle := by decide

theorem witness_ReadFollowsItsRule :
    (wide .blocking).phase = .idle ∧ (block .blocking).phase = .idle ∧
    Config.geom4M.pageSize * Config.geom4M.nPages < (0x3FFFFF : Addr).toNat + 2 ∧
    (0x3FFFFF : Addr).toNat + 1 ≤ Config.geom4M.pageSize * Config.geom4M.nPages ∧
    (0x1000000 : Addr).toNat + 0 ≤ Config.geom16M.pageSize * Config.geom16M.nPages ∧ 2 ^ 24 ≤ (0x1000000 : Addr).toNat ∧
    (fed [.ok [0, 0, 0, 0, 7]] (block .blocking)).xferAnswer = .ok [0, 0, 0, 0, 7] ∧
    (fed [.err te] (block .blocking)).xferAnswer = .err te := by decide

theorem witness_ProgramChecksComeBeforeTraffic :
    (block .blocking).phase = .idle ∧ 256 < (0xFF : Addr).toNat % 256 + 2 ∧ (0xFF : Addr).toNat % 256 + 1 ≤ 256 ∧
    params.programChecksCapacity = true ∧
    Config.geom4M.pageSize * Config.geom4M.nPages < (0x400000 : Addr).toNat + 1 ∧
    (wide .blocking).phase = .idle ∧
    (0x1000000 : Addr).toNat + 0 ≤ Config.geom16M.pageSize * Config.geom16M.nPages ∧ 2 ^ 24 ≤ (0x1000000 : Addr).toNat ∧
    paramsOff.programChecksCapacity = false := by decide

theorem witness_EraseChecksComeBeforeTraffic :
    (block .blocking).phase = .idle ∧ (0x1001 : Addr).toNat % (256 * 16) ≠ 0 ∧ (0x400000 : Addr).toNat % (256 * 16 * 8 * 2) = 0 ∧
    params.eraseChecksCapacity = true ∧ Config.geom4M.pageSize * Config.geom4M.nPages ≤ (0x400000 : Addr).toNat ∧
    (0x1000000 : Addr).toNat % (256 * 16 * 8) = 0 ∧ paramsOff.eraseChecksCapacity = false ∧
    2 ^ 24 ≤ (0x1000000 : Addr).toNat := by decide

theorem witness_DestructiveRequestsIssueWriteEnable :
    (0xFF : Addr).toNat % Config.geom4M.pageSize + 1 ≤ Config.geom4M.pageSize ∧
    (0x3FFFFF : Addr).toNat + 1 ≤ Config.geom4M.pageSize * Config.geom4M.nPages ∧
    (0x3FF000 : Addr).toNat % (256 * 16) = 0 ∧ (0x3F8000 : Addr).toNat % (256 * 16 * 8) = 0 ∧
    (0x3F0000 : Addr).toNat % (256 * 16 * 8 * 2) = 0 ∧
    (0x3FF000 : Addr).toNat < Config.geom4M.pageSize * Config.geom4M.nPages ∧
    (fed [.ok [0]] (block .blocking)).phase = .idle ∧ (fed [.ok [0]] (block .blocking)).xferAnswer = .ok [0] ∧
    (fed [.err te] (block .blocking)).xferAnswer = .err te := by decide

theorem witness_IdentifierAndPowerRequests :
    (fed [.ok [0]] (block .suspending)).phase = .idle ∧ (fed [.ok [0]] (block .suspending)).xferAnswer = .ok [0] ∧
    (fed [.ok [0, 0, 0, 0, 0, 1, 2, 3, 4, 5, 6, 7, 8]] (block .suspending)).xferAnswer =
      .ok [0, 0, 0, 0, 0, 1, 2, 3, 4, 5, 6, 7, 8] ∧
    [0, 0, 0, 0, 0, 1, 2, 3, 4, 5, 6, 7, 8].length = 5 + params.uidLen ∧
    (fed [.err te] (block .suspending)).xferAnswer = .err te := by decide

/-- Between the two frames of a reset. -/
def midReset (r : XferResult) : State := fed [r] (amid .resetEnableSent .reset (block .blocking))

theorem witness_ResetSendsThePair :
    (fed [.ok [0]] (block .blocking)).phase = .idle ∧ (fed [.ok [0]] (block .blocking)).xferAnswer = .ok [0] ∧
    (midReset (.ok [0])).phase = .resetEnableSent ∧ (midReset (.ok [0])).req = some .reset ∧
    (midReset (.ok [0])).env.port = none ∧ (midReset (.ok [0])).xferAnswer = .ok [0] ∧
    (midReset (.err te)).xferAnswer = .err te := by decide

theorem witness_PinRequestsDriveTheirPin :
    (pinned .ok (block .blocking)).phase = .idle ∧ (pinned .ok (block .blocking)).variant = .blocking ∧
    (pinned .ok (block .blocking)).pins = some ⟨.high, .high⟩ ∧ (pinned .ok (block .blocking)).pinAnswer = .ok ∧
    (pinned (.err pe) (block .blocking)).pinAnswer = .err pe := by decide

/-- A record with a reserved code (V-N13). -/
def badRecord : HostInput := .record ⟨0xF, 0, 0, [], .low⟩

theorem witness_RefusalsChangeNothingButTheMark :
    (ported badRecord (block .blocking)).phase = .idle ∧ (ported badRecord (block .blocking)).req = none ∧
    decodeInput (ported badRecord (block .blocking)).variant badRecord = .error .reservedCode ∧
    (ported badRecord (block .blocking)).env.port = some badRecord ∧
    (queued badRecord (block .blocking)).env.port = none ∧ (queued badRecord (block .blocking)).env.hostQueue = [badRecord] ∧
    (block .suspending).phase = .idle ∧ (block .suspending).variant = .suspending := by
  refine ⟨rfl, rfl, rfl, rfl, rfl, rfl, rfl, rfl⟩

theorem witness_FirstFramesComplete :
    (amid .idle sector (fed [.ok [0]] (block .blocking))).phase = .idle ∧
    (amid .idle sector (fed [.ok [0]] (block .blocking))).req = some sector ∧ sector.destructive = true ∧
    (amid .idle sector (fed [.ok [0]] (block .blocking))).xferAnswer = .ok [0] ∧
    (amid .idle .uniqueId (fed [.ok (List.replicate 13 9)] (block .blocking))).xferAnswer = .ok (List.replicate 13 9) ∧
    (List.replicate 13 (9 : Byte)).length = 5 + params.uidLen ∧
    (amid .idle (.read 0xFFFFFF 1) (fed [.ok [1, 2, 3, 4, 5]] (wide .blocking))).xferAnswer = .ok [1, 2, 3, 4, 5] ∧
    (0xFFFFFF : Addr).toNat < 2 ^ 24 := by decide

/-- Before the confirmation of a program. -/
def confirming (r : XferResult) : State := fed [r] (amid .writeEnableSent prog (block .suspending))

theorem witness_ConfirmationTestsTheLatch :
    (confirming (.ok [0xFF, 0x02])).phase = .writeEnableSent ∧ (confirming (.ok [0xFF, 0x02])).req = some prog ∧
    prog.destructive = true ∧ (confirming (.ok [0xFF, 0x02])).xferAnswer = .ok [0xFF, 0x02] ∧
    (0x02 : Byte).getLsbD (confirming (.ok [0xFF, 0x02])).params.welBit = true ∧
    (0xFD : Byte).getLsbD (confirming (.ok [0xFF, 0xFD])).params.welBit = false ∧
    (confirming (.err te)).xferAnswer = .err te := by decide

/-- Before the command transaction of a request. -/
def commanding (r : Request) (answer : XferResult) : State := fed [answer] (amid .confirmed r (block .blocking))

theorem witness_CommandIsOneTransaction :
    (commanding prog (.ok [1, 2, 3, 4, 5, 6])).phase = .confirmed ∧
    (commanding prog (.ok [1, 2, 3, 4, 5, 6])).req = some (.program 0x000010 [0xDE, 0xAD]) ∧
    (commanding prog (.ok [1, 2, 3, 4, 5, 6])).xferAnswer = .ok [1, 2, 3, 4, 5, 6] ∧
    (0x02 :: addrBytes 0x000010 ++ [0xDE, 0xAD]).length = 6 ∧
    (commanding (.erase .sector 0xFFF000) (.ok [1, 2, 3, 4])).xferAnswer = .ok [1, 2, 3, 4] ∧
    (0x20 :: addrBytes 0xFFF000).length = 4 ∧ (0xFFF000 : Addr).toNat < 2 ^ 24 ∧
    (commanding (.erase .chip 0xFFFFFFFF) (.ok [1])).req = some (.erase .chip 0xFFFFFFFF) ∧
    (commanding (.erase .chip 0xFFFFFFFF) (.ok [1])).xferAnswer = .ok [1] := by decide

/-- In the poll of a request. -/
def polling (p : Phase) (v : Variant) (r : Request) (answer : XferResult) : State := fed [answer] (amid p r (block v))

theorem witness_PollReadBranchesOnBusy :
    (polling .commandIssued .suspending prog (.ok [0, 1])).phase = .commandIssued ∧
    (polling .pollingBusy .blocking sector (.ok [0, 0xFE])).phase = .pollingBusy ∧
    (polling .pollingBusy .blocking sector (.ok [0, 0xFE])).variant = .blocking ∧
    (polling .suspended .suspending prog (.err te)).phase = .suspended ∧
    (polling .suspended .suspending prog (.err te)).req = some prog ∧ prog.destructive = true ∧
    (polling .suspended .suspending prog (.err te)).xferAnswer = .err te ∧
    (0x01 : Byte).getLsbD 0 = true ∧ (0xFE : Byte).getLsbD 0 = false ∧
    (polling .commandIssued .suspending prog (.ok [0, 1])).verifyReadback = true := by decide

theorem witness_ReadbackIsCompared :
    (polling .verifying .blocking prog (.ok [0, 0, 0, 0, 0xDE, 0xAD])).phase = .verifying ∧
    (polling .verifying .blocking prog (.ok [0, 0, 0, 0, 0xDE, 0xAD])).req = some (.program 0x000010 [0xDE, 0xAD]) ∧
    (polling .verifying .blocking prog (.ok [0, 0, 0, 0, 0xDE, 0xAD])).xferAnswer = .ok [0, 0, 0, 0, 0xDE, 0xAD] ∧
    (([0, 0, 0, 0, 0xDE, 0xAD] : List Byte).drop 4).take 2 = [0xDE, 0xAD] ∧
    (([0, 0, 0, 0, 0xDE, 0xAC] : List Byte).drop 4).take 2 ≠ [0xDE, 0xAD] := by decide

theorem witness_TransportErrorAborts :
    (commanding prog (.err te)).phase ≠ .faulted ∧
    (commanding prog (.err te)).selected = some (.txPageProgram 0x000010 [0xDE, 0xAD]) ∧
    (Instr.txPageProgram 0x000010 [0xDE, 0xAD]).wf = true ∧ (commanding prog (.err te)).xferAnswer = .err te ∧
    (amid (.failed (.transportError te)) prog (block .blocking)).phase = .failed (.transportError te) ∧
    (amid (.failed (.transportError te)) prog (block .blocking)).env.port = none := by decide

theorem witness_WrongResponseLengthFaults :
    (polling .suspended .suspending prog (.ok [1])).selected = some .txReadStatusRegister1 ∧
    (polling .suspended .suspending prog (.ok [1])).xferAnswer = .ok [1] ∧
    (commanding sector (.ok [1, 2, 3])).selected = some (.txSectorErase 0x001000) ∧
    (Instr.txSectorErase 0x001000).wf = true ∧
    encode (commanding sector (.ok [1, 2, 3])).params (.txSectorErase 0x001000) = .frame [0x20, 0x00, 0x10, 0x00] ∧
    (commanding sector (.ok [1, 2, 3])).xferAnswer = .ok [1, 2, 3] ∧
    ([1, 2, 3] : List Byte).length ≠ ([0x20, 0x00, 0x10, 0x00] : List Byte).length := by decide

theorem witness_FramesAreSentOnlyWhereSelected :
    Instr.txChipErase.request? = none ∧ (block .blocking).phase ≠ .faulted ∧ (block .blocking).selected ≠ some .txChipErase ∧
    (commanding (.program 0x1000000 []) (.ok [])).selected = some (.txPageProgram 0x1000000 []) ∧
    2 ^ 24 ≤ (0x1000000 : Addr).toNat := by decide

theorem witness_StepRunsTheDecodedInstruction :
    (ported (.record progRecord) (block .blocking)).phase = .idle ∧ (ported (.record progRecord) (block .blocking)).req = none ∧
    decodeInput .blocking (.record progRecord) = .ok (.program 0x000010 [0xDE, 0xAD]) ∧
    (ported (.record progRecord) (block .blocking)).env.port = some (.record progRecord) ∧
    (queued (.record progRecord) (block .blocking)).env.port = none ∧
    (queued (.record progRecord) (block .blocking)).env.hostQueue = [.record progRecord] ∧
    (commanding prog (.ok [])).selected = some (.txPageProgram 0x000010 [0xDE, 0xAD]) ∧
    (commanding prog (.ok [])).env.port = none ∧ (commanding prog (.ok [])).phase ≠ .suspended ∧
    (scheduled [.resume] (polling .suspended .suspending prog (.ok [0, 0]))).selected = some .txReadStatusRegister1 ∧
    (scheduled [.resume] (polling .suspended .suspending prog (.ok [0, 0]))).phase = .suspended ∧
    (scheduled [.resume] (polling .suspended .suspending prog (.ok [0, 0]))).env.schedIn = [.resume] := by
  refine ⟨rfl, rfl, rfl, rfl, rfl, rfl, rfl, rfl, by decide, rfl, rfl, rfl⟩

theorem witness_APlacedWordRunsNext :
    decodeTableWord 8 0xC7 = some .txChipErase ∧ Instr.txChipErase.request? = none ∧
    decodeTableWord 8 0xC = some (.setHold .low) ∧ (Instr.setHold .low).request? ≠ none ∧
    (block .blocking).variant ≠ .suspending ∧ decodeTableWord 8 0x0 = some .capacity ∧ Instr.capacity.usesPin = false := by decide

/-- A completed request. -/
def completed : State := { amid .complete (.read 0 1) (block .blocking) with result := some (.bytes [7]) }

theorem witness_RespondReturnsToIdle :
    completed.env.port = none ∧ completed.phase = .complete ∧ completed.result = some (.bytes [7]) ∧
    (amid (.failed .notAligned) sector (block .suspending)).phase = .failed .notAligned ∧
    (amid (.failed .notAligned) sector (block .suspending)).env.port = none ∧
    (queued (.record progRecord) (amid (.failed .notAligned) sector (block .suspending))).env.hostQueue = [.record progRecord] ∧
    decodeInput .suspending (.record progRecord) = .ok (.program 0x000010 [0xDE, 0xAD]) := by
  refine ⟨rfl, rfl, rfl, rfl, rfl, rfl, rfl⟩

/-- A block that has recorded a fault. -/
def broken : State := { amid .faulted prog (block .blocking) with faults := [.transportContract] }

theorem witness_ConcurrentUseFaults :
    (ported (.record progRecord) completed).phase ≠ .idle ∧ (ported (.record progRecord) completed).phase ≠ .faulted ∧
    (ported (.record progRecord) completed).env.port = some (.record progRecord) ∧ Instr.capacity.request? ≠ none ∧
    (ported badRecord (commanding prog (.ok []))).env.port = some badRecord ∧
    (ported badRecord broken).phase = .faulted ∧ (ported badRecord broken).env.port = some badRecord := by
  refine ⟨by decide, by decide, rfl, by decide, rfl, rfl, rfl⟩

theorem witness_FaultedBlocksStop : broken.phase = .faulted := by decide

theorem witness_SuspendingPollYields :
    (amid .pollingBusy prog (block .suspending)).variant = .suspending ∧
    (amid .pollingBusy prog (block .suspending)).req = some prog ∧ prog.destructive = true ∧
    (amid .pollingBusy prog (block .suspending)).env.port = none ∧
    (amid .pollingBusy prog (block .suspending)).phase = .pollingBusy ∧
    (amid .suspended prog (block .suspending)).phase = .suspended ∧
    (amid .suspended prog (block .suspending)).env.schedIn = [] := by decide

theorem witness_CancelAbandonsTheRequest :
    (scheduled [.cancel] (amid .suspended sector (block .suspending))).variant = .suspending ∧
    (scheduled [.cancel] (amid .suspended sector (block .suspending))).phase = .suspended ∧
    (scheduled [.cancel] (amid .suspended sector (block .suspending))).req = some sector ∧ sector.destructive = true ∧
    (scheduled [.cancel] (amid .suspended sector (block .suspending))).env.port = none ∧
    (scheduled [.cancel] (amid .suspended sector (block .suspending))).env.schedIn = [.cancel] := by decide

/-! Witnesses of the rules of the whole block: a state of the invariant, and steps of it. -/

/-- A program whose checks pass, in any phase of the protocol, satisfies the invariant. -/
theorem inv_amid (p : Phase) (v : Variant) (answers : List XferResult) (q : List SchedInput)
    (hp : p.inProtocol = true) (hs : p = .suspended → v = .suspending) :
    (scheduled q (fed answers (amid p prog (block v)))).Inv where
  geometry := by cases v <;> exact (by decide : Config.geom4M.admitted = true)
  pins := by cases v <;> rfl
  noPinRequest := fun _ => ⟨rfl, by cases p <;> first | rfl | cases hp⟩
  table := by cases p <;> first | rfl | cases hp
  suspended := hs
  verifying := fun _ => rfl
  checked := fun _ r hr => by cases hr; cases v <;> rfl
  payload := fun _ => by cases p <;> first | rfl | cases hp
  faulted := by
    refine ⟨fun _ h => ?_, fun _ => rfl⟩
    change p = .faulted at h
    subst h
    cases hp

/-- A step answers a next state. -/
def goesOn (r : Result) : Bool := (after r).isSome

theorem witness_InvariantHoldsAtReset : Config.geom4M.admitted = true := by decide

theorem witness_EveryStepKeepsTheInvariant :
    (scheduled [] (fed [.ok [0xFF, 0x02]] (amid .writeEnableSent prog (block .blocking)))).Inv ∧
    goesOn (step (scheduled [] (fed [.ok [0xFF, 0x02]] (amid .writeEnableSent prog (block .blocking))))) = true ∧
    (scheduled [.resume] (fed [.ok [0xFF, 0x00]] (amid .suspended prog (block .suspending)))).Inv ∧
    goesOn (step (scheduled [.resume] (fed [.ok [0xFF, 0x00]] (amid .suspended prog (block .suspending))))) = true :=
  ⟨inv_amid _ _ _ _ rfl (by decide), by decide, inv_amid _ _ _ _ rfl (fun _ => rfl), by decide⟩

theorem witness_SoundBlocksAlwaysStep :
    (scheduled [] (fed [] (amid .verifying prog (block .suspending)))).Inv ∧
    (scheduled [] (fed [] (amid .verifying prog (block .suspending)))).phase ≠ .faulted :=
  ⟨inv_amid _ _ _ _ rfl (by decide), by decide⟩

theorem witness_AStep : -- ConfigurationIsReadOnly, AStepPerformsAtMostOneAction
    goesOn (step (commanding prog (.ok [1, 2, 3, 4, 5, 6]))) = true ∧ goesOn (step completed) = true := by decide

/-- A faulted block satisfies the invariant too. -/
theorem inv_broken : broken.Inv where
  geometry := by decide
  pins := rfl
  noPinRequest := fun h => nomatch h
  table := rfl
  suspended := fun h => nomatch h
  verifying := fun h => nomatch h
  checked := fun h => nomatch h
  payload := fun h => absurd rfl h
  faulted := ⟨fun h => (nomatch h), fun h => absurd rfl h⟩

theorem witness_FaultsAreSticky :
    goesOn (step (ported badRecord { completed with faults := [.transportContract] })) = true ∧
    ContractFault.transportContract ∈ (ported badRecord { completed with faults := [.transportContract] }).faults ∧
    (scheduled [] (fed [] (amid .confirmed prog (block .blocking)))).Inv ∧ broken.Inv ∧ broken.faults ≠ [] ∧
    goesOn (step (scheduled [] (fed [] (amid .confirmed prog (block .blocking))))) = true :=
  ⟨rfl, by decide, inv_amid _ _ _ _ rfl (by decide), inv_broken, by decide, by decide⟩

theorem witness_DestructiveOpcodesNeedTheLatch :
    (Event.tx [0x02, 0x00, 0x00, 0x10, 0xDE, 0xAD] (.ok [1, 2, 3, 4, 5, 6])).isDestructiveTx = true ∧
    seen (step (commanding prog (.ok [1, 2, 3, 4, 5, 6]))) =
      some (.commandIssued, none, some (.tx [0x02, 0x00, 0x00, 0x10, 0xDE, 0xAD] (.ok [1, 2, 3, 4, 5, 6]))) ∧
    phaseAfter (step (confirming (.ok [0xFF, 0x02]))) = some .confirmed ∧
    phaseAfter (step (queued (.record progRecord) (fed [.ok [0]] (block .blocking)))) = some .writeEnableSent :=
  ⟨by decide, by decide, by decide, rfl⟩

theorem witness_OnlyThePollSuspends :
    seen (step (amid .pollingBusy prog (block .suspending))) = some (.suspended, none, some .yielded) := by decide

theorem witness_SuspendingBlocksTouchNoPin :
    (scheduled [] (fed [] (amid .pollingBusy prog (block .suspending)))).Inv ∧
    (scheduled [] (fed [] (amid .pollingBusy prog (block .suspending)))).variant = .suspending ∧
    goesOn (step (scheduled [] (fed [] (amid .pollingBusy prog (block .suspending))))) = true :=
  ⟨inv_amid _ _ _ _ rfl (by decide), rfl, by decide⟩

theorem witness_DestructiveSuccessNeedsTheChip :
    phaseAfter (step (polling .commandIssued .blocking sector (.ok [0, 0xFE]))) = some .complete ∧
    phaseAfter (step (polling .verifying .blocking prog (.ok [0, 0, 0, 0, 0xDE, 0xAD]))) = some .complete ∧
    sector.destructive = true := by decide

theorem witness_ChipStateUnknownIsSetAsRuled :
    (after (step (commanding prog (.err te)))).map (fun t => (t.phase, t.chipStateUnknown)) =
      some (.failed (.transportError te), true) ∧
    (after (step (confirming (.err te)))).map (fun t => (t.phase, t.chipStateUnknown)) =
      some (.failed (.transportError te), false) ∧
    (after (step (scheduled [.cancel] (amid .suspended sector (block .suspending))))).map
      (fun t => (t.phase, t.chipStateUnknown)) = some (.idle, true) := by decide

theorem witness_RequestsFailOnlyAsListed :
    phaseAfter (step (confirming (.ok [0xFF, 0xFD]))) = some (.failed .writeEnableFail) := by decide

/-- A poll with a status script. -/
def pollScript (v : Variant) (answers : List (Byte × Byte)) : State :=
  fed (answers.map statusAnswer) (amid .commandIssued sector (block v))

theorem witness_PollReadsOnceMoreThanBusy :
    (pollScript .blocking [(0, 1), (0, 3), (0, 2)]).variant = .blocking ∧
    (pollScript .blocking [(0, 1), (0, 3), (0, 2)]).phase = .commandIssued ∧
    (pollScript .blocking [(0, 1), (0, 3), (0, 2)]).req = some sector ∧ sector.destructive = true ∧
    (pollScript .blocking [(0, 1), (0, 3), (0, 2)]).statusReads = 0 ∧
    (pollScript .blocking [(0, 1), (0, 3), (0, 2)]).env.port = none ∧
    (∀ b ∈ ([(0, 1), (0, 3)] : List (Byte × Byte)), b.2.getLsbD 0 = true) ∧ (2 : Byte).getLsbD 0 = false ∧
    (pollScript .blocking [(0, 1), (0, 3), (0, 2)]).env.xferIn =
      ([(0, 1), (0, 3)] : List (Byte × Byte)).map statusAnswer ++ statusAnswer (0, 2) :: [] ∧
    (pollScript .blocking [(0, 2)]).env.xferIn = ([] : List (Byte × Byte)).map statusAnswer ++ statusAnswer (0, 2) :: [] := by
  refine ⟨rfl, rfl, rfl, rfl, rfl, rfl, by simp, by decide, rfl, rfl⟩

theorem witness_SuspendingPollYieldsOncePerBusyRead :
    (scheduled [.resume, .cancel] (pollScript .suspending [(0, 1), (0, 2)])).variant = .suspending ∧
    (scheduled [.resume, .cancel] (pollScript .suspending [(0, 1), (0, 2)])).phase = .commandIssued ∧
    (scheduled [.resume, .cancel] (pollScript .suspending [(0, 1), (0, 2)])).req = some sector ∧ sector.destructive = true ∧
    (scheduled [.resume, .cancel] (pollScript .suspending [(0, 1), (0, 2)])).statusReads = 0 ∧
    (scheduled [.resume, .cancel] (pollScript .suspending [(0, 1), (0, 2)])).suspensions = 0 ∧
    (scheduled [.resume, .cancel] (pollScript .suspending [(0, 1), (0, 2)])).env.port = none ∧
    (1 : Byte).getLsbD 0 = true ∧ (2 : Byte).getLsbD 0 = false ∧
    (scheduled [.resume, .cancel] (pollScript .suspending [(0, 1), (0, 2)])).env.xferIn =
      ([(0, 1)] : List (Byte × Byte)).map statusAnswer ++ statusAnswer (0, 2) :: [] ∧
    (scheduled [.resume, .cancel] (pollScript .suspending [(0, 1), (0, 2)])).env.schedIn =
      List.replicate 1 .resume ++ [.cancel] := by decide

theorem witness_BusyChipHangsThePoll :
    (pollScript .blocking [(0, 1), (9, 0xFF)]).phase = .commandIssued ∧
    1 < (pollScript .blocking [(0, 1), (9, 0xFF)]).env.xferIn.length ∧
    (∀ x ∈ (pollScript .blocking [(0, 1), (9, 0xFF)]).env.xferIn, ∃ b, x = statusAnswer b ∧ b.2.getLsbD 0 = true) :=
  ⟨rfl, by decide, by
    simp only [pollScript, fed, List.map_cons, List.map_nil, List.mem_cons, List.not_mem_nil, or_false]
    rintro x (rfl | rfl)
    · exact ⟨(0, 1), rfl, by decide⟩
    · exact ⟨(9, 0xFF), rfl, by decide⟩⟩

/-- A serial host's program, with the answers of its transactions (95_test_vectors.md V-P11 to V-P20). -/
def programScript (verify : Bool) (answers : List XferResult) : State :=
  queued (.record progRecord) (fed answers { block .blocking with verifyReadback := verify })

theorem witness_SuccessfulProgramTrace :
    (programScript true []).variant = .blocking ∧ (programScript true []).phase = .idle ∧ (programScript true []).req = none ∧
    (programScript true []).env.port = none ∧ (programScript true []).env.hostQueue = [.record progRecord] ∧
    progRecord.code = 0x3 ∧ requestVerdict Config.geom4M params (.program progRecord.addr progRecord.data) = .pass ∧
    (0x02 : Byte).getLsbD params.welBit = true ∧ ([0, 0, 0, 0, 0, 0] : List Byte).length = 4 + progRecord.data.length ∧
    (0x03 : Byte).getLsbD 0 = true ∧ (0x00 : Byte).getLsbD 0 = false ∧
    (programScript false []).verifyReadback = false ∧ (programScript true []).verifyReadback = true ∧
    ([0, 0, 0, 0, 0xDE, 0xAD] : List Byte).length = 4 + progRecord.data.length ∧
    (([0, 0, 0, 0, 0xDE, 0xAD] : List Byte).drop 4).take progRecord.data.length = progRecord.data ∧
    (programScript true [.ok [0], .ok [0, 2], .ok [0, 0, 0, 0, 0, 0], .ok [0, 3], .ok [0, 0],
        .ok [0, 0, 0, 0, 0xDE, 0xAD]]).env.xferIn =
      .ok [0] :: statusAnswer (0, 2) :: .ok [0, 0, 0, 0, 0, 0] ::
        (([(0, 3)] : List (Byte × Byte)).map statusAnswer ++ statusAnswer (0, 0) :: .ok [0, 0, 0, 0, 0xDE, 0xAD] :: []) ∧
    (programScript false [.ok [0], .ok [0, 2], .ok [0, 0, 0, 0, 0, 0], .ok [0, 0]]).env.xferIn =
      .ok [0] :: statusAnswer (0, 2) :: .ok [0, 0, 0, 0, 0, 0] ::
        (([] : List (Byte × Byte)).map statusAnswer ++ statusAnswer (0, 0) :: []) := by
  refine ⟨rfl, rfl, rfl, rfl, rfl, rfl, by decide, by decide, rfl, by decide, by decide, rfl, rfl, rfl, rfl, rfl, rfl⟩

/-- The records of the four erases. -/
def eraseRecord (c : Code) (a : Addr) : RequestWord := ⟨c, a, 0, [], .low⟩

theorem witness_SuccessfulEraseTrace :
    (queued (.record (eraseRecord 0x4 0x3FF000)) (block .blocking)).env.hostQueue = [.record (eraseRecord 0x4 0x3FF000)] ∧
    (queued (.record (eraseRecord 0x4 0x3FF000)) (block .blocking)).phase = .idle ∧
    (queued (.record (eraseRecord 0x4 0x3FF000)) (block .blocking)).req = none ∧
    (queued (.record (eraseRecord 0x4 0x3FF000)) (block .blocking)).env.port = none ∧
    requestVerdict Config.geom4M params (.erase .sector 0x3FF000) = .pass ∧
    requestVerdict Config.geom4M params (.erase .block32K 0x3F8000) = .pass ∧
    requestVerdict Config.geom4M params (.erase .block64K 0x3F0000) = .pass ∧
    requestVerdict Config.geom4M params (.erase .chip 0xFFFFFFFF) = .pass ∧
    ([0, 0, 0, 0] : List Byte).length = (0x20 :: addrBytes 0x3FF000).length ∧ ([0] : List Byte).length = ([0xC7] : List Byte).length ∧
    (0x02 : Byte).getLsbD params.welBit = true ∧
    (fed [.ok [0], .ok [0, 2], .ok [0, 0, 0, 0], .ok [0, 1], .ok [0, 0]] (block .blocking)).env.xferIn =
      .ok [0] :: statusAnswer (0, 2) :: .ok [0, 0, 0, 0] ::
        (([(0, 1)] : List (Byte × Byte)).map statusAnswer ++ statusAnswer (0, 0) :: []) := by
  refine ⟨rfl, rfl, rfl, rfl, by decide, by decide, by decide, by decide, rfl, rfl, by decide, rfl⟩

/-- A reference chip over GEOM_4M: WEL set, K_BUSY = 2, two bytes programmed. -/
def chip : Chip where
  capacity := 4194304
  mem := [⟨0, 0x12⟩, ⟨5, 0x34⟩]
  wel := true
  busyLeft := 0
  pd := false
  rstEn := false
  uid := [1, 2, 3, 4, 5, 6, 7, 8]
  kBusy := 2

theorem witness_ReferenceArrayIsCanonical : Memory.wf [⟨0, 0x12⟩, ⟨5, 0x34⟩] = true ∧ Memory.wf chip.mem = true := by decide

theorem witness_ReferenceChipPollCount :
    (amid .confirmed prog (block .blocking)).variant = .blocking ∧ (amid .confirmed prog (block .blocking)).phase = .confirmed ∧
    (amid .confirmed prog (block .blocking)).req = some prog ∧ prog.destructive = true ∧
    commandFrame prog = some (.txPageProgram 0x000010 [0xDE, 0xAD]) ∧ (Instr.txPageProgram 0x000010 [0xDE, 0xAD]).wf = true ∧
    (amid .confirmed prog (block .blocking)).env.port = none ∧ chip.pd = false ∧ chip.wel = true ∧ chip.busyLeft = 0 := by
  decide

end Sys2Proof.Tests
end

section
/-!
PROOFS. What every move of a step leaves unchanged, said once for the base of a transaction (`FrameBase`), for what follows its Ok
(`OkMove`) and for the recorded fault.
-/

namespace Sys2Proof.Machine

variable {s t u v : State} {out received : List Byte}

/-! ### The moves, field by field -/

/-- The state a transaction is made from differs from the step's start only in the latched request, the yields, the trace and the
inputs. -/
theorem FrameBase.eq (h : FrameBase s u) :
    ∃ r n tr e, u = { s with req := r, suspensions := n, trace := tr, env := e } := by
  cases h with
  | transmit _ => exact ⟨_, _, _, _, rfl⟩
  | accept r _ _ _ =>
    obtain ⟨e, he⟩ := s.consume_eq
    exact ⟨_, _, _, _, by rw [he]; rfl⟩
  | resume _ _ => exact ⟨_, _, _, _, rfl⟩

theorem FrameBase.phase_eq (h : FrameBase s u) : u.phase = s.phase := by
  obtain ⟨_, _, _, _, rfl⟩ := h.eq
  rfl

theorem FrameBase.faults_eq (h : FrameBase s u) : u.faults = s.faults := by
  obtain ⟨_, _, _, _, rfl⟩ := h.eq
  rfl

theorem FrameBase.chipStateUnknown_eq (h : FrameBase s u) : u.chipStateUnknown = s.chipStateUnknown := by
  obtain ⟨_, _, _, _, rfl⟩ := h.eq
  rfl

/-- Before its transaction a step has recorded at most a Resume. -/
theorem FrameBase.trace_eq (h : FrameBase s u) : u.trace = s.trace ∨ u.trace = s.trace ++ [.resumed] := by
  cases h with
  | transmit _ => exact .inl rfl
  | accept r _ _ _ => exact .inl (by simp)
  | resume _ _ => exact .inr rfl

/-- The confirmation writes the phase alone. -/
theorem confirmLatch_eq (received : List Byte) (v : State) : ∃ ph, confirmLatch received v = { v with phase := ph } := by
  unfold confirmLatch
  split <;> exact ⟨_, rfl⟩

/-- The branch after a status read writes the phase and the payload. -/
theorem pollBranch_eq (received : List Byte) (v : State) :
    ∃ ph res, pollBranch received v = { v with phase := ph, result := res } := by
  unfold pollBranch
  split
  · exact ⟨_, _, rfl⟩
  · split <;> exact ⟨_, _, rfl⟩

/-- What follows an Ok writes the phase, the payload and the count of status reads, and nothing else. -/
theorem OkMove.eq (h : OkMove u out received v t) :
    ∃ ph res n, t = { v with phase := ph, result := res, statusReads := n } := by
  cases h with
  | confirm _ _ _ _ _ =>
    obtain ⟨ph, h⟩ := confirmLatch_eq received v
    exact ⟨_, _, _, h⟩
  | poll _ _ _ _ _ =>
    obtain ⟨ph, res, h⟩ := pollBranch_eq received v.countRead
    exact ⟨_, _, _, h⟩
  | _ => exact ⟨_, _, _, rfl⟩

theorem OkMove.faults_eq (h : OkMove u out received v t) : t.faults = v.faults := by
  obtain ⟨_, _, _, rfl⟩ := h.eq
  rfl

theorem OkMove.chipStateUnknown_eq (h : OkMove u out received v t) : t.chipStateUnknown = v.chipStateUnknown := by
  obtain ⟨_, _, _, rfl⟩ := h.eq
  rfl

theorem OkMove.trace_eq (h : OkMove u out received v t) : t.trace = v.trace := by
  obtain ⟨_, _, _, rfl⟩ := h.eq
  rfl

/-- A pin request ends as its pin write did. -/
theorem State.drivePin_cases (s : State) (p : Pin) (l : Level) :
    s.drivePin p l = ((s.afterPin p l).setLevel p (recordedLevel l s.pinAnswer)).finish .nothing ∨
      ∃ e, s.drivePin p l = ((s.afterPin p l).setLevel p (recordedLevel l s.pinAnswer)).raise (.pinError e) := by
  unfold State.drivePin
  split
  · exact .inl rfl
  · exact .inr ⟨_, rfl⟩

theorem State.verifies_eq_true (h : s.verifies = true) :
    s.verifyReadback = true ∧ ∃ a d, s.req = some (.program a d) := by
  unfold State.verifies at h
  split at h
  · exact ⟨h, _, _, ‹_›⟩
  · cases h

/-! ### Faults -/

/-- R35: recording a fault removes none. -/
theorem State.mem_recordFault_of_mem {f g : ContractFault} (h : f ∈ s.faults) : f ∈ (s.recordFault g).faults := by
  rw [State.recordFault_faults]
  split
  · exact h
  · exact List.mem_append_left _ h

theorem State.recordFault_faults_ne_nil (f : ContractFault) (s : State) : (s.recordFault f).faults ≠ [] := by
  have h : f ∈ (s.recordFault f).faults := by
    rw [State.recordFault_faults]
    split
    · assumption
    · exact List.mem_append_right _ (List.mem_singleton.mpr rfl)
  exact List.ne_nil_of_mem h

/-- R240: a Faulted block has no step. -/
theorem step_faulted (h : s.phase = .faulted) : step s = .fault (.stopped s.faults) := by
  have ha : s.action = .halt := by rw [State.action, h]
  rw [step, ha]

/-- A step is never taken from Faulted. -/
theorem phase_ne_faulted_of_step (h : step s = .next t) : s.phase ≠ .faulted := by
  intro hf
  rw [step_faulted hf] at h
  cases h

end Sys2Proof.Machine
end

section
/-!
PROOFS. The invariant of the block: it holds after construction (O13) and every step keeps it (O40). Between its acceptance and its
response a request is being served (`State.Serving`): what the invariant then says whatever the phase. Each way a step can end
(another phase of the tables, Complete, Failed, Faulted, Idle) gets the invariant back from that, once.
-/

namespace Sys2Proof.Machine

variable {s t u : State} {r : Request}

/-- What the invariant says of a block that has a request latched, whatever its phase. -/
structure State.Serving (s : State) : Prop where
  geometry : s.geom.admitted = true
  pins : s.pins.isSome = decide (s.variant = .blocking)
  noPinRequest : s.variant = .suspending → s.req.any Request.usesPin = false
  latched : s.req.isSome = true
  noFault : s.faults = []

/-- Serving a request does not concern the phase, the payload, the ghost fields, the refusals and the inputs. -/
theorem State.Serving.of_eq (h : s.Serving) (hg : t.geom = s.geom) (hv : t.variant = s.variant)
    (hp : t.pins.isSome = s.pins.isSome) (hr : t.req = s.req) (hf : t.faults = s.faults) : t.Serving where
  geometry := hg ▸ h.geometry
  pins := by rw [hp, hv, h.pins]
  noPinRequest := by rw [hv, hr]; exact h.noPinRequest
  latched := hr ▸ h.latched
  noFault := hf ▸ h.noFault

theorem State.Serving.afterXfer (h : s.Serving) (out : List Byte) : (s.afterXfer out).Serving :=
  h.of_eq rfl rfl rfl rfl rfl

theorem State.Serving.consume (h : s.Serving) : s.consume.Serving := h.of_eq (by simp) (by simp) (by simp) (by simp) (by simp)

/-! ### The ends of a step -/

/-- The tables allow a latched request at Complete, Failed and Faulted. -/
theorem phaseAllows_end {p : Phase} {q : Option Request} (hp : p = .complete ∨ (∃ e, p = .failed e) ∨ p = .faulted)
    (hq : q.isSome = true) : phaseAllows p q = true := by
  obtain ⟨r, rfl⟩ := Option.isSome_iff_exists.mp hq
  rcases hp with rfl | ⟨e, rfl⟩ | rfl <;> rfl

theorem State.Serving.inv_recordFault (h : s.Serving) (f : ContractFault) : (s.recordFault f).Inv where
  geometry := h.geometry
  pins := h.pins
  noPinRequest hv := ⟨h.noPinRequest hv, rfl⟩
  table := phaseAllows_end (.inr (.inr rfl)) h.latched
  suspended hp := by cases hp
  verifying hp := by cases hp
  checked hp := by cases hp
  payload hp := absurd rfl hp
  faulted := iff_of_false (State.recordFault_faults_ne_nil f s) (not_not_intro rfl)

theorem State.Serving.inv_finish (h : s.Serving) (pl : Payload) : (s.finish pl).Inv where
  geometry := h.geometry
  pins := h.pins
  noPinRequest hv := ⟨h.noPinRequest hv, rfl⟩
  table := phaseAllows_end (.inl rfl) h.latched
  suspended hp := by cases hp
  verifying hp := by cases hp
  checked hp := by cases hp
  payload _ := rfl
  faulted := iff_of_true h.noFault nofun

theorem State.Serving.inv_raise (h : s.Serving) (hn : s.result = none) {e : BlockError}
    (he : s.variant = .suspending → e.isPinError = false) : (s.raise e).Inv where
  geometry := h.geometry
  pins := h.pins
  noPinRequest hv := ⟨h.noPinRequest hv, he hv⟩
  table := phaseAllows_end (.inr (.inl ⟨e, rfl⟩)) h.latched
  suspended hp := by cases hp
  verifying hp := by cases hp
  checked hp := by cases hp
  payload _ := by simp [hn]
  faulted := iff_of_true h.noFault nofun

/-- Entry into another phase of a request in progress. -/
theorem State.Serving.inv_goto (h : s.Serving) (hn : s.result = none)
    (hc : ∀ r, s.req = some r → requestVerdict s.geom s.params r = .pass) {p : Phase}
    (hp : p.inProtocol = true ∨ p = .resetEnableSent) (ha : phaseAllows p s.req = true)
    (hs : p = .suspended → s.variant = .suspending) (hv : p = .verifying → s.verifyReadback = true) : (s.goto p).Inv where
  geometry := h.geometry
  pins := h.pins
  noPinRequest hv := ⟨h.noPinRequest hv, by
    rcases hp with hp | rfl
    · cases p with
      | failed e => cases hp
      | _ => rfl
    · rfl⟩
  table := ha
  suspended := hs
  verifying := hv
  checked _ := hc
  payload _ := by
    have : p ≠ .complete := by
      rintro rfl
      simp [Phase.inProtocol] at hp
    simp [hn, this]
  faulted := iff_of_true h.noFault (by
    rintro rfl
    simp [Phase.inProtocol] at hp)

/-- The block is Idle again (R154, R206), or was never served (R241): nothing latched, no payload, no fault. -/
theorem State.inv_idle (hg : s.geom.admitted = true) (hpins : s.pins.isSome = decide (s.variant = .blocking))
    (hp : s.phase = .idle) (hr : s.req = none) (hn : s.result = none) (hf : s.faults = []) : s.Inv where
  geometry := hg
  pins := hpins
  noPinRequest _ := by simp [hp, hr, Phase.isPinFailure]
  table := by simp [hp, hr, phaseAllows]
  suspended h := by simp [hp] at h
  verifying h := by simp [hp] at h
  checked h := by simp [hp, Phase.inProtocol] at h
  payload _ := by simp [hp, hn]
  faulted := by simp [hp, hf]

/-! ### The invariant, read off at the start of a step -/

theorem State.Inv.faults_eq_nil (h : s.Inv) (hf : s.phase ≠ .faulted) : s.faults = [] := h.faulted.mpr hf

theorem State.Inv.result_eq_none (h : s.Inv) (hf : s.phase ≠ .faulted) (hc : s.phase ≠ .complete) : s.result = none := by
  simpa [hc] using h.payload hf

theorem State.Inv.req_eq_none (h : s.Inv) (hp : s.phase = .idle) : s.req = none := by
  have ht := h.table
  rw [hp] at ht
  cases hr : s.req with
  | none => rfl
  | some r => rw [hr] at ht; cases ht

theorem State.Inv.req_isSome (h : s.Inv) (hp : s.phase ≠ .idle) : s.req.isSome = true := by
  have ht := h.table
  cases hr : s.req with
  | some r => rfl
  | none =>
    rw [hr] at ht
    cases hq : s.phase with
    | idle => exact absurd hq hp
    | _ => rw [hq] at ht; cases ht

/-- A block that is neither Idle nor Faulted serves a request. -/
theorem State.Inv.serving (h : s.Inv) (hp : s.phase ≠ .idle) (hf : s.phase ≠ .faulted) : s.Serving where
  geometry := h.geometry
  pins := h.pins
  noPinRequest hv := (h.noPinRequest hv).1
  latched := h.req_isSome hp
  noFault := h.faults_eq_nil hf

/-- An Idle block that accepts a request serves it, if a SUSPENDING block is asked for no pin. -/
theorem State.Inv.serving_latch (h : s.Inv) (hp : s.phase = .idle) (hr : s.variant = .suspending → r.usesPin = false) :
    (s.consume.latch r).Serving where
  geometry := by simpa using h.geometry
  pins := by simpa using h.pins
  noPinRequest := by simpa using hr
  latched := rfl
  noFault := by simpa using h.faults_eq_nil (by simp [hp])

/-- A frame the tables select belongs to a request that has passed its checks. -/
theorem State.Inv.selected_passed (h : s.Inv) {i : Instr} (hs : s.selected = some i) (hq : s.req = some r) :
    requestVerdict s.geom s.params r = .pass := by
  rcases State.selected_cases hs with ⟨r', hp, hr, -⟩ | ⟨-, hr, -⟩ | ⟨_, hp, -⟩ | ⟨_, -, -, -, hp⟩ | ⟨_, _, hp, -⟩
  · rw [h.req_eq_none hp] at hr
    cases hr
  · cases hr.symm.trans hq
    rfl
  · exact h.checked (by rw [hp]; rfl) r hq
  · exact h.checked (by rcases hp with hp | hp | ⟨hp, -⟩ | ⟨hp, -⟩ <;> rw [hp] <;> rfl) r hq
  · exact h.checked (by rw [hp]; rfl) r hq

theorem checkFrameAddr_ne_fail (a : Addr) (e : BlockError) : checkFrameAddr a ≠ .fail e := by
  unfold checkFrameAddr
  split <;> simp

theorem boundaryError_isPinError (p : Params) (b : Bool) : (boundaryError p b).isPinError = false := by
  unfold boundaryError
  split <;> rfl

/-- Checks fail with alignment or bounds, never with a pin error. -/
theorem requestVerdict_fail {g : Geometry} {p : Params} {e : BlockError} (h : requestVerdict g p r = .fail e) :
    e.isPinError = false := by
  cases r with
  | read a n =>
    simp only [requestVerdict, checkRead] at h
    split at h
    · cases h; rfl
    · exact absurd h (checkFrameAddr_ne_fail a e)
  | program a d =>
    simp only [requestVerdict, checkProgram] at h
    split at h
    · cases h; exact boundaryError_isPinError p _
    · split at h
      · cases h; rfl
      · exact absurd h (checkFrameAddr_ne_fail a e)
  | erase gran a =>
    simp only [requestVerdict, checkErase] at h
    split at h
    · cases h
    · split at h
      · cases h; rfl
      · split at h
        · cases h; rfl
        · exact absurd h (checkFrameAddr_ne_fail a e)
  | _ => cases h

/-- A pin request has no checks to fail. -/
theorem usesPin_of_verdict {g : Geometry} {p : Params} {v : Verdict} (h : requestVerdict g p r = v) (hv : v ≠ .pass) :
    r.usesPin = false := by
  cases r with
  | setHold l => exact absurd h.symm hv
  | setWp l => exact absurd h.symm hv
  | _ => rfl

/-- A pin request sends no frame. -/
theorem usesPin_of_firstFrame {i : Instr} (h : firstFrame r = some i) : r.usesPin = false := by
  cases r with
  | setHold l => cases h
  | setWp l => cases h
  | _ => rfl

/-! ### A frame's transaction -/

/-- A block about to send the frame the tables select: it serves a request that passed its checks, and holds no payload. -/
structure State.Sending (s : State) : Prop extends s.Serving where
  passed : ∀ r, s.req = some r → requestVerdict s.geom s.params r = .pass
  noPayload : s.result = none

theorem FrameBase.sending {i : Instr} (hi : s.Inv) (hb : FrameBase s u) (hs : u.selected = some i) : u.Sending := by
  cases hb with
  | transmit hf =>
    have hp : s.phase ≠ .idle := by
      intro hp
      simp [State.selected, hp, hi.req_eq_none hp] at hs
    have hc : s.phase ≠ .complete := by
      intro hc
      simp [State.selected, hc] at hs
    exact { hi.serving hp hf with passed := fun _ => hi.selected_passed hs, noPayload := hi.result_eq_none hf hc }
  | accept r hp hr hv =>
    have hu : r.usesPin = false := by
      rw [State.latch_selected (by simpa using hp)] at hs
      exact usesPin_of_firstFrame hs
    refine { hi.serving_latch hp (fun _ => hu) with passed := ?_, noPayload := ?_ }
    · simpa using hv
    · simpa using hi.result_eq_none (by simp [hp]) (by simp [hp])
  | resume hp hv =>
    have hl : s.Serving := hi.serving (by simp [hp]) (by simp [hp])
    refine { hl.of_eq rfl rfl rfl rfl rfl with passed := ?_, noPayload := ?_ }
    · exact hi.checked (by rw [hp]; rfl)
    · exact hi.result_eq_none (by simp [hp]) (by simp [hp])

theorem State.Sending.afterXfer (h : s.Sending) (out : List Byte) : (s.afterXfer out).Sending :=
  { h.toServing.afterXfer out with passed := h.passed, noPayload := h.noPayload }

theorem State.Sending.ghost (h : s.Sending) (n : Nat) (c : Bool) :
    State.Sending { s with statusReads := n, chipStateUnknown := c } :=
  { h.of_eq rfl rfl rfl rfl rfl with passed := h.passed, noPayload := h.noPayload }

theorem State.Sending.inv_confirmLatch (h : s.Sending) (hr : s.req = some r) (hd : r.destructive = true)
    (received : List Byte) : (confirmLatch received s).Inv := by
  unfold confirmLatch
  split
  · exact h.inv_goto h.noPayload h.passed (.inl rfl) (by rw [hr]; exact hd) nofun nofun
  · exact h.inv_raise h.noPayload (fun _ => rfl)

theorem State.Sending.inv_pollBranch (h : s.Sending) (hr : s.req = some r) (hd : r.destructive = true)
    (received : List Byte) : (pollBranch received s).Inv := by
  unfold pollBranch
  split
  · exact h.inv_goto h.noPayload h.passed (.inl rfl) (by rw [hr]; exact hd) nofun nofun
  · split
    · obtain ⟨hv, a, d, hq⟩ := State.verifies_eq_true ‹_›
      exact h.inv_goto h.noPayload h.passed (.inl rfl) (by rw [hq]; rfl) nofun (fun _ => hv)
    · exact h.inv_finish _

/-- R150, R201: an Ok of the selected frame ends in a state of the invariant. -/
theorem OkMove.inv {out received : List Byte} (hu : u.Sending) (h : OkMove u out received (u.afterXfer out) t) : t.Inv := by
  have hx := hu.afterXfer out
  cases h with
  | writeEnable r _ hr hd _ =>
    exact hx.inv_goto hx.noPayload hx.passed (.inl rfl) (by rw [State.afterXfer_req, hr]; exact hd) nofun nofun
  | enableReset _ hr _ => exact hx.inv_goto hx.noPayload hx.passed (.inr rfl) (by simp [hr, phaseAllows]) nofun nofun
  | confirm r _ hr hd _ => exact hx.inv_confirmLatch hr hd received
  | command r _ hr hd =>
    have hy := hx.ghost 0 u.chipStateUnknown
    exact hy.inv_goto hy.noPayload hy.passed (.inl rfl) (by rw [State.afterXfer_req, hr]; exact hd) nofun nofun
  | poll r _ hr hd _ => exact (hx.ghost (u.statusReads + 1) u.chipStateUnknown).inv_pollBranch hr hd received
  | mismatch _ _ _ _ _ _ => exact hx.inv_raise hx.noPayload (fun _ => rfl)
  | power _ _ _ _ => exact hx.inv_finish _
  | uniqueId _ _ _ => exact hx.inv_finish _
  | read _ _ _ _ _ => exact hx.inv_finish _
  | reset _ _ _ => exact hx.inv_finish _
  | verified _ _ _ _ _ _ => exact hx.inv_finish _

/-! ### Every step -/

theorem State.Serving.inv_drivePin (h : s.Serving) (hn : s.result = none) (hv : s.variant = .blocking) (p : Pin) (l : Level) :
    (s.drivePin p l).Inv := by
  have hd : ((s.afterPin p l).setLevel p (recordedLevel l s.pinAnswer)).Serving :=
    h.of_eq rfl rfl (State.setLevel_isSome _ _ _) rfl rfl
  rcases s.drivePin_cases p l with he | ⟨e, he⟩ <;> rw [he]
  · exact hd.inv_finish _
  · exact hd.inv_raise hn (fun hs => absurd (hv.symm.trans hs) (by decide))

theorem StepMove.inv (hi : s.Inv) (h : StepMove s t) : t.Inv := by
  have noPayload (hp : s.phase = .idle) : s.result = none := hi.result_eq_none (by simp [hp]) (by simp [hp])
  cases h with
  | wait _ => exact hi
  | refuse k hp hr =>
    exact State.inv_idle (by simpa using hi.geometry) (by simpa using hi.pins) (by simpa using hp) (by simpa using hr)
      (by simpa using noPayload hp) (by simpa using hi.faults_eq_nil (by simp [hp]))
  | concurrent hp hf => exact (hi.serving hp hf).consume.inv_recordFault _
  | answer r pl hp _ hc =>
    have hu : r.usesPin = false := by rcases hc with ⟨rfl, -⟩ | ⟨rfl, -⟩ <;> rfl
    exact (hi.serving_latch hp (fun _ => hu)).inv_finish pl
  | fail r e hp _ hv =>
    have hu : r.usesPin = false := usesPin_of_verdict hv nofun
    exact (hi.serving_latch hp (fun _ => hu)).inv_raise (by simpa using noPayload hp) (fun _ => requestVerdict_fail hv)
  | reject r f hp _ hv =>
    have hu : r.usesPin = false := usesPin_of_verdict hv nofun
    exact (hi.serving_latch hp (fun _ => hu)).inv_recordFault f
  | pin r p l hp _ hv _ =>
    have hl := hi.serving_latch (r := r) hp (fun hs => absurd (hv.symm.trans hs) (by decide))
    exact hl.inv_drivePin (by simpa using noPayload hp) (by simpa using hv) p l
  | yield r hp hv hr hd =>
    have hl : State.Serving { s with trace := s.trace ++ [.yielded], suspensions := s.suspensions + 1 } :=
      (hi.serving (by simp [hp]) (by simp [hp])).of_eq rfl rfl rfl rfl rfl
    exact hl.inv_goto (hi.result_eq_none (by simp [hp]) (by simp [hp])) (hi.checked (by rw [hp]; rfl)) (.inl rfl)
      (by rw [hr]; exact hd) (fun _ => hv) nofun
  | cancel r hp _ _ _ =>
    exact State.inv_idle hi.geometry hi.pins rfl rfl (hi.result_eq_none (by simp [hp]) (by simp [hp]))
      (hi.faults_eq_nil (by simp [hp]))
  | respond hp =>
    have hf : s.phase ≠ .faulted := by rcases hp with hp | ⟨e, hp⟩ <;> simp [hp]
    exact State.inv_idle hi.geometry hi.pins rfl rfl rfl (hi.faults_eq_nil hf)
  | unencodable u i f hb hs _ => exact (hb.sending hi hs).inv_recordFault f
  | badLength u i out received hb hs _ _ _ =>
    exact (((hb.sending hi hs).afterXfer out).ghost _ u.chipStateUnknown).inv_recordFault .transportContract
  | err u i out e hb hs _ _ =>
    have hx := ((hb.sending hi hs).afterXfer out).ghost
      (if u.phase = .commandIssued ∨ u.phase = .pollingBusy ∨ u.phase = .suspended then u.statusReads + 1 else u.statusReads)
      (u.chipStateUnknown || u.phase.afterCommand)
    exact hx.inv_raise hx.noPayload (fun _ => rfl)
  | ok u t i out received hb hs _ _ _ hm => exact hm.inv (hb.sending hi hs)

/-- Settles O40: by cases on what a step can do (`StepMove`). -/
theorem everyStepKeepsTheInvariant : Obligations.EveryStepKeepsTheInvariant :=
  fun _ _ hi h => (step_move h).inv hi

/-! ### After construction -/

theorem State.inv_constructed (w : Variant) {g : Geometry} (b : Bool) (p : Params) (hg : g.admitted = true) :
    (State.constructed w g b p).Inv :=
  State.inv_idle hg (by cases w <;> rfl) rfl rfl rfl rfl

/-- Settles O13: the pins of either variant, and the rest by the form of a constructed state; GEOM_4M is admitted. -/
theorem invariantHoldsAtReset : Obligations.InvariantHoldsAtReset :=
  ⟨fun w _ b p hg => State.inv_constructed w b p hg, State.inv_constructed _ _ _ (by decide)⟩

end Sys2Proof.Machine
end

section
/-!
PROOFS. The ghost fields decide nothing (O51). An update of the state is blind if it leaves states that agree but for their ghost
fields (`State.eraseGhost`) in such states; a meaning is blind if its outcomes agree so. Every shared operation is blind, so every
meaning is, and the action a step performs reads no ghost field.
-/

namespace Sys2Proof.Machine

variable {s t : State} {f : State → State} {m : State → Result}

/-- An update whose result depends on ghost fields in its ghost fields alone. -/
def BlindUpdate (f : State → State) : Prop := ∀ s, (f s).eraseGhost = (f s.eraseGhost).eraseGhost

/-- A meaning whose outcome depends on ghost fields in its ghost fields alone. -/
def Blind (m : State → Result) : Prop := ∀ s, eraseGhost (m s) = eraseGhost (m s.eraseGhost)

/-- Blindness is between any two states that agree but for their ghost fields. -/
theorem BlindUpdate.congr (hf : BlindUpdate f) (h : s.eraseGhost = t.eraseGhost) : (f s).eraseGhost = (f t).eraseGhost := by
  rw [hf s, hf t, h]

theorem Blind.congr (hm : Blind m) (h : s.eraseGhost = t.eraseGhost) : eraseGhost (m s) = eraseGhost (m t) := by
  rw [hm s, hm t, h]

theorem Blind.comp (hm : Blind m) (hf : BlindUpdate f) : Blind fun s => m (f s) := fun s => hm.congr (hf s)

theorem BlindUpdate.next (hf : BlindUpdate f) : Blind fun s => .next (f s) := fun s => congrArg Host.Outcome.next (hf s)

/-! ### The shared operations -/

theorem State.consume_blind : BlindUpdate State.consume := by
  intro s
  have he : s.eraseGhost.env = s.env := rfl
  simp only [State.consume, he]
  split <;> rfl

theorem confirmLatch_blind (received : List Byte) : BlindUpdate (confirmLatch received) := by
  intro s
  have hp : s.eraseGhost.params = s.params := rfl
  simp only [confirmLatch, hp]
  split <;> rfl

theorem pollBranch_blind (received : List Byte) : BlindUpdate (pollBranch received) := by
  intro s
  have hv : s.eraseGhost.verifies = s.verifies := rfl
  simp only [pollBranch, hv]
  split
  · rfl
  · split <;> rfl

theorem readDone_blind (n : Nat) (received : List Byte) : BlindUpdate (readDone n received) := by
  intro s
  have hp : s.eraseGhost.phase = s.phase := rfl
  have hr : s.eraseGhost.req = s.req := rfl
  simp only [readDone, hp, hr]
  split
  · split <;> rfl
  · rfl

theorem commandSent_blind (received : List Byte) : BlindUpdate (commandSent received) := fun _ => rfl

theorem bareDone_blind (received : List Byte) : BlindUpdate (bareDone received) := fun _ => rfl

theorem State.finish_blind (pl : Payload) : BlindUpdate (State.finish pl) := fun _ => rfl

theorem uidDone_blind (received : List Byte) : BlindUpdate (uidDone received) :=
  fun s => State.finish_blind (.bytes (uidBytes s.params received)) s

theorem State.goto_blind (p : Phase) : BlindUpdate (State.goto p) := fun _ => rfl

theorem State.failTransport_blind (b : Bool) (e : TransportErr) : BlindUpdate (State.failTransport b e) := by
  intro s
  simp only [State.failTransport, State.eraseGhost]

theorem txOk_blind (p : Phase) (i : Instr) (received : List Byte) : BlindUpdate (txOk p i received) := by
  cases i with
  | txPageProgram a d => exact commandSent_blind received
  | txSectorErase a => exact commandSent_blind received
  | txBlock32Erase a => exact commandSent_blind received
  | txBlock64Erase a => exact commandSent_blind received
  | txChipErase => exact commandSent_blind received
  | txReadData a n => exact readDone_blind n received
  | txReadStatusRegister1 =>
    by_cases hp : p = .writeEnableSent
    · rw [txOk_confirmation hp]
      exact confirmLatch_blind received
    · rw [txOk_poll hp]
      exact pollBranch_blind received
  | txWriteEnable => exact State.goto_blind _
  | txEnableReset => exact State.goto_blind _
  | txUniqueId => exact uidDone_blind received
  | _ => exact bareDone_blind received

theorem txErr_blind (p : Phase) (i : Instr) (e : TransportErr) : BlindUpdate (txErr p i e) := by
  cases i with
  | txReadStatusRegister1 =>
    by_cases hp : p = .writeEnableSent
    · rw [txErr_confirmation hp]
      exact State.failTransport_blind false e
    · rw [txErr_poll hp]
      exact State.failTransport_blind true e
  | _ => exact State.failTransport_blind _ e

theorem State.xfer_blind (out : List Byte) {onOk : List Byte → State → State} {onErr : TransportErr → State → State}
    (hok : ∀ received, BlindUpdate (onOk received)) (herr : ∀ e, BlindUpdate (onErr e)) :
    BlindUpdate (State.xfer out onOk onErr) := by
  intro s
  have ha : s.eraseGhost.xferAnswer = s.xferAnswer := rfl
  have hx : (s.afterXfer out).eraseGhost = (s.eraseGhost.afterXfer out).eraseGhost := rfl
  rcases State.xfer_cases s out onOk onErr with ⟨received, h, hl, he⟩ | ⟨e, h, he⟩ | ⟨received, h, hl, he⟩
  · rw [he, State.xfer_ok (ha.trans h) hl]
    exact (hok received).congr hx
  · rw [he, State.xfer_err (ha.trans h)]
    exact (herr e).congr hx
  · rw [he, State.xfer_badLength (ha.trans h) hl]
    rfl

theorem State.send_blind (i : Instr) (bytes : Except ContractFault (List Byte)) {onOk : List Byte → State → State}
    {onErr : TransportErr → State → State} (hok : ∀ received, BlindUpdate (onOk received))
    (herr : ∀ e, BlindUpdate (onErr e)) : Blind (State.send i bytes onOk onErr) := by
  intro s
  by_cases hf : s.phase = .faulted
  · rw [State.send_faulted hf, State.send_faulted (s := s.eraseGhost) hf]
    rfl
  by_cases hs : s.selected = some i
  · cases bytes with
    | error f =>
      rw [State.send_error hf hs rfl, State.send_error (s := s.eraseGhost) hf hs rfl]
      rfl
    | ok out =>
      rw [State.send_ok hf hs rfl, State.send_ok (s := s.eraseGhost) hf hs rfl]
      exact (State.xfer_blind out hok herr).next s
  · rw [State.send_notSelected hf hs, State.send_notSelected (s := s.eraseGhost) hf hs]

theorem State.accept_blind (r : Request) (v : Verdict) {first : State → Result} (h : Blind first) :
    Blind (State.accept r v first) := by
  intro s
  by_cases hf : s.phase = .faulted
  · rw [State.accept_faulted hf, State.accept_faulted (s := s.eraseGhost) hf]
    rfl
  by_cases hi : s.phase = .idle
  · cases v with
    | pass =>
      rw [State.accept_pass hi, State.accept_pass (s := s.eraseGhost) hi]
      exact h.congr rfl
    | fail e =>
      rw [State.accept_fail hi, State.accept_fail (s := s.eraseGhost) hi]
      rfl
    | fault f =>
      rw [State.accept_fault hi, State.accept_fault (s := s.eraseGhost) hi]
      rfl
  · rw [State.accept_concurrent hi hf, State.accept_concurrent (s := s.eraseGhost) hi hf]
    rfl

theorem State.drivePin_blind (p : Pin) (l : Level) : BlindUpdate (State.drivePin p l) := by
  intro s
  have ha : s.eraseGhost.pinAnswer = s.pinAnswer := rfl
  simp only [State.drivePin, ha]
  split <;> rfl

/-- R87, R207: a pin request at Idle is refused in the SUSPENDING variant. -/
theorem State.acceptPin_refused {p : Pin} {l : Level} {r : Request} (hp : s.phase = .idle) (hv : s.variant = .suspending) :
    s.acceptPin p l r = .next (s.markRefused .noPins) := by
  rw [State.acceptPin, hp, hv]

/-- R185, R186: anywhere else it is an accept step without checks. -/
theorem State.acceptPin_accepted {p : Pin} {l : Level} {r : Request} (h : s.phase = .idle → s.variant ≠ .suspending) :
    s.acceptPin p l r = s.accept r .pass fun t => .next (t.drivePin p l) := by
  unfold State.acceptPin
  split
  · exact absurd ‹_› (h ‹_›)
  · rfl

theorem State.acceptPin_blind (p : Pin) (l : Level) (r : Request) : Blind (State.acceptPin p l r) := by
  intro s
  by_cases h : s.phase = .idle → s.variant ≠ .suspending
  · rw [State.acceptPin_accepted h, State.acceptPin_accepted (s := s.eraseGhost) h]
    exact State.accept_blind r .pass (State.drivePin_blind p l).next s
  · push Not at h
    obtain ⟨hp, hv⟩ := h
    rw [State.acceptPin_refused hp hv, State.acceptPin_refused (s := s.eraseGhost) hp hv]
    rfl

/-! ### The meanings -/

/-- Every frame's meaning is blind: the status reads it counts are a ghost field, and so is all that `State.counted` writes. -/
theorem exec_frame_blind {i : Instr} (h : i.request? = none) : Blind (exec i) := by
  intro s
  rw [exec_frame h, exec_frame h]
  exact (State.send_blind i _ (txOk_blind s.phase i) (txErr_blind s.phase i)).congr rfl

theorem firstAction_blind (r : Request) : Blind (firstAction r) := by
  cases hf : firstFrame r with
  | some i =>
    rw [firstAction_frame hf]
    exact exec_frame_blind (by cases r <;> cases hf <;> rfl)
  | none =>
    cases r with
    | setHold l => exact (State.drivePin_blind .hold l).next
    | setWp l => exact (State.drivePin_blind .wp l).next
    | capacity => exact fun _ => rfl
    | model => exact fun _ => rfl
    | _ => cases hf

theorem exec_blind (i : Instr) : Blind (exec i) := by
  cases hi : i.request? with
  | none => exact exec_frame_blind hi
  | some r =>
    cases hp : r.usesPin with
    | false =>
      intro s
      rw [exec_request hi hp, exec_request hi hp]
      exact State.accept_blind r _ (firstAction_blind r) s
    | true =>
      cases i with
      | setHold l => exact State.acceptPin_blind .hold l _
      | setWp l => exact State.acceptPin_blind .wp l _
      | _ => cases hi <;> cases hp

/-! ### The step -/

/-- What the next step does is read off the phase, the latched request and the inputs. -/
theorem State.eraseGhost_action (s : State) : s.eraseGhost.action = s.action := rfl

theorem step_blind : Blind step := by
  intro s
  unfold step
  rw [s.eraseGhost_action]
  cases s.action with
  | accept i => exact (exec_blind i).comp State.consume_blind s
  | transmit i => exact exec_blind i s
  | resume => exact (exec_blind .txReadStatusRegister1).congr rfl
  | refuse k => exact congrArg (fun x => Host.Outcome.next (x.markRefused k)) (State.consume_blind s)
  | concurrent => exact congrArg (fun x => Host.Outcome.next (x.recordFault .concurrentUse)) (State.consume_blind s)
  | _ => rfl

/-- Settles O51: the step is blind. -/
theorem ghostFieldsDecideNothing : Obligations.GhostFieldsDecideNothing := step_blind

end Sys2Proof.Machine
end

section
/-!
PROOFS. One transaction or pin write (O14), and where a frame is sent (O31).
-/

namespace Sys2Proof.Machine

variable {s : State} {i : Instr} {a : Addr}

theorem State.xferAnswer_cons {x : XferResult} {q : List XferResult} (h : s.env.xferIn = x :: q) : s.xferAnswer = x := by
  rw [State.xferAnswer, h]

theorem State.pinAnswer_cons {x : PinResult} {q : List PinResult} (h : s.env.pinIn = x :: q) : s.pinAnswer = x := by
  rw [State.pinAnswer, h]

/-- Settles O14: the two updates by their definition, the answers by the script's first entry. -/
theorem anExternalActionIsRecorded : Obligations.AnExternalActionIsRecorded :=
  fun _ _ _ _ => ⟨rfl, rfl, fun _ _ => State.xferAnswer_cons, fun _ _ => State.pinAnswer_cons⟩

/-- R24: a frame the tables do not select is not sent. -/
theorem exec_frame_notSelected (hi : i.request? = none) (hf : s.phase ≠ .faulted) (hs : s.selected ≠ some i) :
    exec i s = .refused .noSuchStep := by
  rw [exec_frame hi]
  exact State.send_notSelected hf hs

/-- R121: a selected frame that cannot be encoded is the encoder's fault, and no transaction is made. -/
theorem exec_frame_unencodable {f : ContractFault} (hf : s.phase ≠ .faulted) (hs : s.selected = some i)
    (hb : txBytes s.params i = .error f) : exec i s = .next (s.recordFault f) := by
  have hr : i ≠ .txReadStatusRegister1 := by
    rintro rfl
    cases hb
  rw [exec_frame (State.selected_isFrame hs), State.counted_other hr]
  exact State.send_error hf hs hb

/-- The five frames that carry an address have no bytes for one that does not fit. -/
theorem txBytes_out_of_range (p : Params) (ha : addrLimit ≤ a.toNat)
    (hi : (∃ d, i = .txPageProgram a d) ∨ (∃ n, i = .txReadData a n) ∨ i = .txSectorErase a ∨ i = .txBlock32Erase a ∨
      i = .txBlock64Erase a) : txBytes p i = .error (.encoderAddressRange a) := by
  rcases hi with ⟨d, rfl⟩ | ⟨n, rfl⟩ | rfl | rfl | rfl <;> exact frame_out_of_range rfl ha

/-- Settles O31: by the tables' selection, and by the encoder's fault. -/
theorem framesAreSentOnlyWhereSelected : Obligations.FramesAreSentOnlyWhereSelected :=
  ⟨fun _ _ => exec_frame_notSelected,
    fun s _ _ hf hs ha hi => exec_frame_unencodable hf hs (txBytes_out_of_range s.params ha hi)⟩

end Sys2Proof.Machine
end

section
/-!
PROOFS. What every step keeps, whatever state it is taken from: the configuration (O42), the recorded faults (O43) and
chip_state_unknown (O49).
-/

namespace Sys2Proof.Machine

variable {s t u v : State} {out received : List Byte}

/-! ### The configuration -/

/-- The configuration of a block (R21, R22). -/
def State.config (s : State) : Variant × Geometry × Bool × Params := (s.variant, s.geom, s.verifyReadback, s.params)

theorem State.config_eq_iff : t.config = s.config ↔
    t.variant = s.variant ∧ t.geom = s.geom ∧ t.verifyReadback = s.verifyReadback ∧ t.params = s.params := by
  simp [State.config]

theorem State.consume_config (s : State) : s.consume.config = s.config := by simp [State.config]

theorem FrameBase.config_eq (h : FrameBase s u) : u.config = s.config := by
  obtain ⟨_, _, _, _, rfl⟩ := h.eq
  rfl

theorem OkMove.config_eq (h : OkMove u out received v t) : t.config = v.config := by
  obtain ⟨_, _, _, rfl⟩ := h.eq
  rfl

theorem State.drivePin_config (s : State) (p : Pin) (l : Level) : (s.drivePin p l).config = s.config := by
  rcases s.drivePin_cases p l with h | ⟨e, h⟩ <;> rw [h] <;> rfl

theorem StepMove.config_eq (h : StepMove s t) : t.config = s.config := by
  cases h with
  | refuse k _ _ => exact s.consume_config
  | concurrent _ _ => exact s.consume_config
  | answer _ _ _ _ _ => exact s.consume_config
  | fail _ _ _ _ _ => exact s.consume_config
  | reject _ _ _ _ _ => exact s.consume_config
  | pin r p l _ _ _ _ => exact (State.drivePin_config _ p l).trans s.consume_config
  | unencodable u i f hb _ _ => exact hb.config_eq
  | badLength u i out received hb _ _ _ _ => exact hb.config_eq
  | err u i out e hb _ _ _ => exact hb.config_eq
  | ok u t i out received hb _ _ _ _ hm => exact hm.config_eq.trans hb.config_eq
  | _ => rfl

/-- Settles O42: no move of a step writes a field of the configuration. -/
theorem configurationIsReadOnly : Obligations.ConfigurationIsReadOnly :=
  fun _ _ h => State.config_eq_iff.mp (step_move h).config_eq

/-! ### Faults -/

theorem State.drivePin_faults (s : State) (p : Pin) (l : Level) : (s.drivePin p l).faults = s.faults := by
  rcases s.drivePin_cases p l with h | ⟨e, h⟩ <;> rw [h] <;> rfl

/-- R35: no move of a step removes a fault. -/
theorem StepMove.mem_faults {f : ContractFault} (h : StepMove s t) (hf : f ∈ s.faults) : f ∈ t.faults := by
  have hc : f ∈ s.consume.faults := by rwa [State.consume_faults]
  cases h with
  | refuse _ _ _ => exact hc
  | concurrent _ _ => exact State.mem_recordFault_of_mem hc
  | answer _ _ _ _ _ => exact hc
  | fail _ _ _ _ _ => exact hc
  | reject _ _ _ _ _ => exact State.mem_recordFault_of_mem hc
  | pin r p l _ _ _ _ => rwa [State.drivePin_faults]
  | unencodable u i f hb _ _ => exact State.mem_recordFault_of_mem (hb.faults_eq ▸ hf)
  | badLength u i out received hb _ _ _ _ => exact State.mem_recordFault_of_mem (hb.faults_eq ▸ hf)
  | err u i out e hb _ _ _ => exact hb.faults_eq ▸ hf
  | ok u t i out received hb _ _ _ _ hm => rwa [hm.faults_eq, State.afterXfer_faults, hb.faults_eq]
  | _ => exact hf

/-- Under the invariant a fault stands only in a Faulted block. -/
theorem State.Inv.phase_eq_faulted (h : s.Inv) (hf : s.faults ≠ []) : s.phase = .faulted := by
  by_contra hp
  exact hf (h.faults_eq_nil hp)

/-- Settles O43: the moves of a step, and the invariant at its start and at its end. -/
theorem faultsAreSticky : Obligations.FaultsAreSticky := by
  refine ⟨fun s t h f => (step_move h).mem_faults, fun s t hi h => ⟨?_, ?_⟩, fun s hi hf => ⟨?_, ?_⟩⟩
  · exact hi.faults_eq_nil (phase_ne_faulted_of_step h)
  · exact ((step_move h).inv hi).phase_eq_faulted
  · exact hi.phase_eq_faulted hf
  · exact step_faulted (hi.phase_eq_faulted hf)

/-! ### chip_state_unknown -/

/-- A step cut short the request from its command transaction on: a transport error there (R155, R237). -/
def failsAfterCommand (s t : State) : Prop :=
  s.phase.afterCommand = true ∧ ∃ e, t.phase = .failed (.transportError e)

theorem not_failsAfterCommand_of_idle (hp : s.phase = .idle) : ¬ failsAfterCommand s t := by
  simp [failsAfterCommand, hp, Phase.afterCommand]

theorem not_failsAfterCommand_of_phase (hp : ∀ e, t.phase ≠ .failed (.transportError e)) : ¬ failsAfterCommand s t :=
  fun ⟨_, e, he⟩ => hp e he

/-- A move that leaves the flag is neither a Cancel nor such an error. -/
theorem chipStateUnknown_iff_of_eq (hc : t.chipStateUnknown = s.chipStateUnknown) (ht : t.trace ≠ s.trace ++ [.cancelled])
    (hn : ¬ failsAfterCommand s t) :
    t.chipStateUnknown = true ↔ s.chipStateUnknown = true ∨ t.trace = s.trace ++ [.cancelled] ∨ failsAfterCommand s t := by
  simp [hc, ht, hn]

theorem trace_ne_of_eq {e : Event} (h : t.trace = s.trace) : t.trace ≠ s.trace ++ [e] := by
  simp [h]

/-- A transaction records itself last, so its step records no Cancel. -/
theorem FrameBase.afterXfer_trace_ne (h : FrameBase s u) (out : List Byte) :
    (u.afterXfer out).trace ≠ s.trace ++ [.cancelled] := by
  rcases h.trace_eq with h | h <;> simp [h]

/-- An Ok is never followed by a transport error. -/
theorem OkMove.phase_ne (h : OkMove u out received v t) (e : TransportErr) : t.phase ≠ .failed (.transportError e) := by
  cases h with
  | confirm _ _ _ _ _ =>
    unfold confirmLatch
    split <;> simp
  | poll _ _ _ _ _ =>
    unfold pollBranch
    split
    · simp
    · split <;> simp
  | _ => simp

theorem State.drivePin_chipStateUnknown (s : State) (p : Pin) (l : Level) :
    (s.drivePin p l).chipStateUnknown = s.chipStateUnknown := by
  rcases s.drivePin_cases p l with h | ⟨e, h⟩ <;> rw [h] <;> rfl

theorem State.drivePin_trace (s : State) (p : Pin) (l : Level) :
    (s.drivePin p l).trace = s.trace ++ [.pin p l s.pinAnswer] := by
  rcases s.drivePin_cases p l with h | ⟨e, h⟩ <;> rw [h] <;> rfl

theorem StepMove.chipStateUnknown_iff (h : StepMove s t) :
    t.chipStateUnknown = true ↔ s.chipStateUnknown = true ∨ t.trace = s.trace ++ [.cancelled] ∨ failsAfterCommand s t := by
  cases h with
  | wait hp =>
    refine chipStateUnknown_iff_of_eq rfl (trace_ne_of_eq rfl) (not_failsAfterCommand_of_phase ?_)
    rcases hp with ⟨hp, -⟩ | ⟨hp, -⟩ <;> simp [hp]
  | refuse k hp _ =>
    exact chipStateUnknown_iff_of_eq (by simp) (trace_ne_of_eq (by simp)) (not_failsAfterCommand_of_idle hp)
  | concurrent _ _ =>
    exact chipStateUnknown_iff_of_eq (by simp) (trace_ne_of_eq (by simp)) (not_failsAfterCommand_of_phase (by simp))
  | answer r pl hp _ _ =>
    exact chipStateUnknown_iff_of_eq (by simp) (trace_ne_of_eq (by simp)) (not_failsAfterCommand_of_idle hp)
  | fail r e hp _ _ =>
    exact chipStateUnknown_iff_of_eq (by simp) (trace_ne_of_eq (by simp)) (not_failsAfterCommand_of_idle hp)
  | reject r f hp _ _ =>
    exact chipStateUnknown_iff_of_eq (by simp) (trace_ne_of_eq (by simp)) (not_failsAfterCommand_of_idle hp)
  | pin r p l hp _ _ _ =>
    exact chipStateUnknown_iff_of_eq (by simp [State.drivePin_chipStateUnknown]) (by simp [State.drivePin_trace])
      (not_failsAfterCommand_of_idle hp)
  | yield _ _ _ _ _ => exact chipStateUnknown_iff_of_eq rfl (by simp) (not_failsAfterCommand_of_phase (by simp))
  | cancel _ _ _ _ _ => exact iff_of_true rfl (.inr (.inl rfl))
  | respond _ => exact chipStateUnknown_iff_of_eq rfl (by simp) (not_failsAfterCommand_of_phase (by simp))
  | unencodable u i f hb _ _ =>
    refine chipStateUnknown_iff_of_eq hb.chipStateUnknown_eq ?_ (not_failsAfterCommand_of_phase (by simp))
    rcases hb.trace_eq with h | h <;> simp [h]
  | badLength u i out received hb _ _ _ _ =>
    exact chipStateUnknown_iff_of_eq hb.chipStateUnknown_eq (hb.afterXfer_trace_ne out)
      (not_failsAfterCommand_of_phase (by simp))
  | err u i out e hb _ _ _ =>
    have ht := hb.afterXfer_trace_ne out
    simp only [State.afterXfer_trace] at ht
    simp [failsAfterCommand, ht, hb.chipStateUnknown_eq, hb.phase_eq]
  | ok u t i out received hb _ _ _ _ hm =>
    exact chipStateUnknown_iff_of_eq (hm.chipStateUnknown_eq.trans hb.chipStateUnknown_eq)
      (hm.trace_eq ▸ hb.afterXfer_trace_ne out) (not_failsAfterCommand_of_phase hm.phase_ne)

/-- Settles O49: by cases on what a step can do. -/
theorem chipStateUnknownIsSetAsRuled : Obligations.ChipStateUnknownIsSetAsRuled :=
  fun _ _ h => (step_move h).chipStateUnknown_iff

end Sys2Proof.Machine
end

section
/-!
PROOFS. A block of the invariant always has a step (O41): a selected frame is sent or cannot be encoded, what is decoded at the
port is a request and is accepted or fails its checks, and the tables list a step for every other phase.
-/

namespace Sys2Proof.Machine

variable {s : State} {i : Instr} {r : Request}

/-! ### What is decoded at the port is a request -/

/-- What a parser reads, if it reads anything, is a request of the port and no command frame. -/
def SpellsRequests (o : Option Instr) : Prop := ∀ i, o = some i → i.request?.isSome = true

theorem SpellsRequests.none : SpellsRequests none := nofun

theorem SpellsRequests.some {j : Instr} (hj : j.request?.isSome = true) : SpellsRequests (some j) := by
  intro i h
  cases h
  exact hj

theorem SpellsRequests.map {α : Type} {f : α → Instr} (hf : ∀ x, (f x).request?.isSome = true) (o : Option α) :
    SpellsRequests (o.map f) := by
  cases o with
  | none => exact .none
  | some x => exact .some (hf x)

theorem SpellsRequests.ite {c : Prop} [Decidable c] {o o' : Option Instr} (h : SpellsRequests o) (h' : SpellsRequests o') :
    SpellsRequests (if c then o else o') := by
  split
  · exact h
  · exact h'

theorem parseBare_spellsRequests (m : List Char) : SpellsRequests (parseBare m) :=
  .ite (.some rfl) <| .ite (.some rfl) <| .ite (.some rfl) <| .ite (.some rfl) <| .ite (.some rfl) <| .ite (.some rfl) <|
    .ite (.some rfl) .none

theorem parseOne_spellsRequests (m x : List Char) : SpellsRequests (parseOne m x) :=
  .ite (.map (fun _ => rfl) _) <| .ite (.map (fun _ => rfl) _) <| .ite (.map (fun _ => rfl) _) <|
    .ite (.map (fun _ => rfl) _) <| .ite (.map (fun _ => rfl) _) <| .ite (.map (fun _ => rfl) _) .none

theorem parseTwo_spellsRequests (m x y : List Char) : SpellsRequests (parseTwo m x y) := by
  refine .ite ?_ <| .ite ?_ .none
  · split
    · exact .some rfl
    · exact .none
  · exact .ite (.map (fun _ => rfl) _) <| .ite (.map (fun _ => rfl) _) <| .ite (.map (fun _ => rfl) _) <|
      .ite (.map (fun _ => rfl) _) .none

theorem parseProgram_spellsRequests (m x : List Char) (d : Option (List Byte)) : SpellsRequests (parseProgram m x d) := by
  refine .ite ?_ .none
  split
  · exact .some rfl
  · exact .none

theorem parseTokens_spellsRequests (ts : List Token) : SpellsRequests (parseTokens ts) := by
  unfold parseTokens
  split
  · exact parseBare_spellsRequests _
  · exact parseOne_spellsRequests _ _
  · exact parseTwo_spellsRequests _ _ _
  · exact parseProgram_spellsRequests _ _ _
  · exact parseProgram_spellsRequests _ _ _
  · exact .none

theorem refusePins_ok {w : Variant} {j : Instr} (h : refusePins w j = .ok i) : i = j := by
  unfold refusePins at h
  split at h <;> cases h
  rfl

theorem request_of_decodeRequest {w : Variant} {x : RequestWord} (h : decodeRequest w x = .ok i) :
    i.request?.isSome = true := by
  unfold decodeRequest at h
  split at h
  -- the two pin requests, codes 0xC and 0xD
  case h_13 => rw [refusePins_ok h]; rfl
  case h_14 => rw [refusePins_ok h]; rfl
  all_goals cases h
  all_goals rfl

/-- The request port spells no frame (R75, R84, R85). -/
theorem request_of_decodeInput {w : Variant} {x : HostInput} (h : decodeInput w x = .ok i) : ∃ r, i.request? = some r := by
  rw [← Option.isSome_iff_exists]
  cases x with
  | record x => exact request_of_decodeRequest h
  | text line =>
    simp only [decodeInput, decodeText] at h
    split at h
    · cases h
    · rw [refusePins_ok h]
      exact parseTokens_spellsRequests _ _ ‹_›

/-! ### Meanings that always answer a next state -/

/-- A selected frame is sent, or is the encoder's fault. -/
theorem exec_frame_total (hf : s.phase ≠ .faulted) (hs : s.selected = some i) : ∃ t, exec i s = .next t := by
  cases hb : txBytes s.params i with
  | ok out => exact ⟨_, exec_frame_selected hf hs hb⟩
  | error f => exact ⟨_, exec_frame_unencodable hf hs hb⟩

/-- At Idle every request is accepted, fails its checks, or is refused for want of pins. -/
theorem exec_request_total (hi : i.request? = some r) (hp : s.phase = .idle) : ∃ t, exec i s = .next t := by
  cases hu : r.usesPin with
  | true =>
    obtain ⟨p, l, he, -⟩ := exec_pinRequest hi hu s
    rw [he]
    cases hv : s.variant with
    | suspending => exact ⟨_, State.acceptPin_refused hp hv⟩
    | blocking => exact ⟨_, (State.acceptPin_accepted (by simp [hv])).trans (State.accept_pass hp)⟩
  | false =>
    rw [exec_request hi hu]
    cases requestVerdict s.geom s.params r with
    | fail e => exact ⟨_, State.accept_fail hp⟩
    | fault f => exact ⟨_, State.accept_fault hp⟩
    | pass =>
      rw [State.accept_pass hp]
      cases hq : firstFrame r with
      | some f =>
        rw [firstAction_frame hq]
        exact exec_frame_total (by simp [hp]) (by rw [State.latch_selected hp, hq])
      | none =>
        cases r with
        | capacity => exact ⟨_, rfl⟩
        | model => exact ⟨_, rfl⟩
        | setHold l => exact ⟨_, rfl⟩
        | setWp l => exact ⟨_, rfl⟩
        | _ => cases hq

/-! ### The tables list a step for every phase of the invariant -/

theorem commandFrame_isSome (h : r.destructive = true) : (commandFrame r).isSome = true := by
  cases r with
  | program a d => rfl
  | erase g a => cases g <;> rfl
  | _ => cases h

theorem statusFrame_of_destructive (h : r.destructive = true) : statusFrame r = some .txReadStatusRegister1 := by
  rw [statusFrame, if_pos h]

/-- A block of the invariant that serves a request has a frame to send, but for the yield of a SUSPENDING poll. -/
theorem State.Inv.selected_isSome (h : s.Inv) (hp : s.phase.inProtocol = true ∨ s.phase = .resetEnableSent)
    (hv : s.phase = .pollingBusy → s.variant = .blocking) : ∃ i, s.selected = some i := by
  have ht := h.table
  obtain ⟨r, hr⟩ := Option.isSome_iff_exists.mp (h.req_isSome (by rintro hi; simp [hi, Phase.inProtocol] at hp))
  rw [hr] at ht
  unfold State.selected
  cases hq : s.phase <;> rw [hq] at ht hp <;> simp only [hr]
  case writeEnableSent => exact ⟨_, statusFrame_of_destructive ht⟩
  case confirmed => exact Option.isSome_iff_exists.mp (commandFrame_isSome ht)
  case commandIssued => exact ⟨_, statusFrame_of_destructive ht⟩
  case pollingBusy => exact ⟨_, (if_pos (hv hq)).trans (statusFrame_of_destructive ht)⟩
  case suspended => exact ⟨_, (if_pos (h.suspended hq)).trans (statusFrame_of_destructive ht)⟩
  case verifying =>
    cases r with
    | program a d => exact ⟨_, rfl⟩
    | _ => cases ht
  case resetEnableSent =>
    cases r with
    | reset => exact ⟨_, rfl⟩
    | _ => cases ht
  all_goals simp [Phase.inProtocol] at hp

theorem State.idleAction_ne_none (h : s.req = none) : s.idleAction ≠ .none := by
  simp only [State.idleAction, h]
  split
  · simp
  · split <;> simp

theorem State.transmission_ne_none (h : ∃ i, s.selected = some i) : s.transmission ≠ .none := by
  obtain ⟨i, hi⟩ := h
  simp [State.transmission_eq.mpr hi]

theorem State.suspendedAction_ne_none (h : ∃ i, s.selected = some i) : s.suspendedAction ≠ .none := by
  obtain ⟨i, hi⟩ := h
  simp only [State.suspendedAction, hi]
  split <;> simp

/-- A poll reads the status register again (BLOCKING) or yields (SUSPENDING, R201). -/
theorem State.Inv.pollingAction_ne_none (h : s.Inv) (hp : s.phase = .pollingBusy) : s.pollingAction ≠ .none := by
  unfold State.pollingAction
  split
  · have ht := h.table
    rw [hp, ‹s.req = _›] at ht
    rw [if_pos (show Request.destructive _ = true from ht)]
    simp
  · rename_i hx
    refine State.transmission_ne_none (h.selected_isSome (.inl (by rw [hp]; rfl)) fun _ => ?_)
    obtain ⟨r, hr⟩ := Option.isSome_iff_exists.mp (h.req_isSome (by simp [hp]))
    cases hv : s.variant with
    | blocking => rfl
    | suspending => exact (hx r hv hr).elim

/-- A request at the port is a step of its own (R243). -/
theorem ite_concurrent_ne_none {c : Prop} [Decidable c] {a : Action} (h : a ≠ .none) :
    (if c then .concurrent else a) ≠ .none := by
  split
  · simp
  · exact h

/-- R24: the tables list a step for every state of the invariant. -/
theorem State.Inv.action_ne_none (h : s.Inv) : s.action ≠ .none := by
  have sends (hp : s.phase.inProtocol = true ∨ s.phase = .resetEnableSent) (hb : s.phase ≠ .pollingBusy) :
      ∃ i, s.selected = some i := h.selected_isSome hp (fun hx => absurd hx hb)
  cases hp : s.phase <;> simp only [hp, Phase.inProtocol] at sends <;> simp only [State.action, hp]
  case faulted => simp
  case idle => exact State.idleAction_ne_none (h.req_eq_none hp)
  case complete => exact ite_concurrent_ne_none (by simp)
  case failed => exact ite_concurrent_ne_none (by simp)
  case pollingBusy => exact ite_concurrent_ne_none (h.pollingAction_ne_none hp)
  case suspended => exact ite_concurrent_ne_none (State.suspendedAction_ne_none (sends (by simp) (by simp)))
  all_goals exact ite_concurrent_ne_none (State.transmission_ne_none (sends (by simp) (by simp)))

theorem State.action_halt (h : s.action = .halt) : s.phase = .faulted := by
  unfold State.action State.idleAction State.transmission State.pollingAction State.suspendedAction State.transmission at h
  grind

/-- Settles O41: each action the tables can decide answers a next state. -/
theorem soundBlocksAlwaysStep : Obligations.SoundBlocksAlwaysStep := by
  intro s hi hf
  unfold step
  cases ha : s.action with
  | halt => exact absurd (State.action_halt ha) hf
  | accept i =>
    obtain ⟨hp, -, x, -, hx⟩ := State.action_accept ha
    obtain ⟨r, hr⟩ := request_of_decodeInput hx
    exact exec_request_total hr (by simpa using hp)
  | transmit i => exact exec_frame_total hf (State.action_transmit ha).1
  | resume =>
    obtain ⟨hp, hs, -⟩ := State.action_resume ha
    exact exec_frame_total (by simp [hp]) hs
  | none => exact absurd ha hi.action_ne_none
  | _ => exact ⟨_, rfl⟩

end Sys2Proof.Machine
end

section
/-!
PROOFS. A response of another length than the frame (O30), and what a destructive request completes on (O48): of all the moves of a
step only two reach Complete with one latched, a status read of the poll that showed BUSY 0 and a readback that matched.
-/

namespace Sys2Proof.Machine

variable {s t u v : State} {r : Request} {out received : List Byte}

/-- Settles O30: a selected well-formed frame has bytes, and the transaction's third outcome is the fault. -/
theorem wrongResponseLengthFaults : Obligations.WrongResponseLengthFaults := by
  intro s i out received hf hs hw ho hx hl
  obtain ⟨out', hb, he⟩ := txBytes_wf (p := s.params) (State.selected_isFrame hs) hw
  cases he.symm.trans ho
  rw [exec_frame_badLength hf hs hb hx hl, ← State.counted_statusReads hs]
  rfl

/-! ### Completion -/

theorem FrameBase.params_eq (h : FrameBase s u) : u.params = s.params := by
  obtain ⟨_, _, _, _, rfl⟩ := h.eq
  rfl

/-- Where nothing is accepted and nothing resumed, a step's transaction is made from the state itself. -/
theorem FrameBase.eq_self (h : FrameBase s u) (hi : s.phase ≠ .idle) (hs : s.phase ≠ .suspended) : u = s := by
  cases h with
  | transmit _ => rfl
  | accept _ hp _ _ => exact absurd hp hi
  | resume hp _ => exact absurd hp hs

/-- R157: the confirmation completes nothing. -/
theorem confirmLatch_phase_ne_complete (received : List Byte) (v : State) : (confirmLatch received v).phase ≠ .complete := by
  unfold confirmLatch
  split <;> simp

/-- R161: a status read ends the poll only with BUSY 0. -/
theorem busy_of_pollBranch_complete (h : (pollBranch received v).phase = .complete) : busy (sr1 received) = false := by
  unfold pollBranch at h
  split at h
  · cases h
  · simpa using ‹¬ busy (sr1 received) = true›

/-- The frame whose Ok completes a destructive request: a status read of the poll with BUSY 0, or a readback equal to the data. -/
theorem OkMove.complete_destructive (h : OkMove u out received (u.afterXfer out) t) (hc : t.phase = .complete)
    (hr : t.req = some r) (hd : r.destructive = true) :
    ((u.phase = .commandIssued ∨ u.phase = .pollingBusy ∨ u.phase = .suspended) ∧ out = [0x05, u.params.fillByte] ∧
      busy (sr1 received) = false) ∨
    (u.phase = .verifying ∧ ∃ a d, r = .program a d ∧ out = 0x03 :: addrBytes a ++ fill u.params d.length ∧
      readBytes received d.length = d) := by
  have hu : u.req = some r := by
    obtain ⟨_, _, _, rfl⟩ := h.eq
    exact hr
  cases h with
  | writeEnable _ _ _ _ _ => cases hc
  | enableReset _ _ _ => cases hc
  | command _ _ _ _ => cases hc
  | mismatch _ _ _ _ _ _ => cases hc
  | confirm _ _ _ _ _ => exact absurd hc (confirmLatch_phase_ne_complete _ _)
  | power r' _ hq ho =>
    cases hq.symm.trans hu
    rcases ho with ⟨rfl, -⟩ | ⟨rfl, -⟩ <;> cases hd
  | uniqueId _ hq _ => cases hq.symm.trans hu; cases hd
  | read _ _ _ hq _ => cases hq.symm.trans hu; cases hd
  | reset _ hq _ => cases hq.symm.trans hu; cases hd
  | poll _ hp _ _ ho =>
    exact .inl ⟨hp.imp_right (Or.imp And.left And.left), ho, busy_of_pollBranch_complete hc⟩
  | verified a d hp hq ho hb =>
    cases hq.symm.trans hu
    exact .inr ⟨hp, a, d, rfl, ho, hb⟩

/-- Of the moves of a step only an Ok completes a destructive request. -/
theorem StepMove.complete_destructive (h : StepMove s t) (hc : t.phase = .complete) (hs : s.phase ≠ .complete)
    (hr : t.req = some r) (hd : r.destructive = true) :
    ∃ u out received, FrameBase s u ∧ u.xferAnswer = .ok received ∧ received.length = out.length ∧
      OkMove u out received (u.afterXfer out) t := by
  cases h with
  | ok u t i out received hb _ _ hx hl hm => exact ⟨u, out, received, hb, hx, hl, hm⟩
  | wait _ => exact absurd hc hs
  | refuse k hp _ => simp [hp] at hc
  | answer r' pl _ _ hr' =>
    cases hr
    rcases hr' with ⟨rfl, -⟩ | ⟨rfl, -⟩ <;> cases hd
  | pin r' p l _ _ _ hr' =>
    have hq : r' = r := by
      rcases State.drivePin_cases (s.consume.latch r') p l with h | ⟨e, h⟩ <;> rw [h] at hr <;> cases hr <;> rfl
    rcases hr' with ⟨-, rfl⟩ | ⟨-, rfl⟩ <;> cases hq <;> cases hd
  | _ => cases hc

/-- Settles O48: the step's transaction, and what its Ok did. -/
theorem destructiveSuccessNeedsTheChip : Obligations.DestructiveSuccessNeedsTheChip := by
  intro s t r h hc hs hr hd
  obtain ⟨u, out, received, hb, hx, hl, hm⟩ := (step_move h).complete_destructive hc hs hr hd
  have ht : t.trace = u.trace ++ [.tx out (.ok received)] := by rw [hm.trace_eq, State.afterXfer_trace, hx]
  rcases hm.complete_destructive hc hr hd with ⟨hp, rfl, hbusy⟩ | ⟨hp, a, d, rfl, rfl, hrb⟩
  · obtain ⟨b0, sr, rfl⟩ := List.length_eq_two.mp hl
    exact .inl ⟨u.trace, b0, sr, hbusy, hb.params_eq ▸ ht, hb.phase_eq ▸ hp⟩
  · rw [hb.phase_eq] at hp
    cases hb.eq_self (by simp [hp]) (by simp [hp])
    exact .inr ⟨hp, a, d, received, rfl, hrb, ht⟩

end Sys2Proof.Machine
end

section
/-!
PROOFS. The reference chip's array (O57): what a read returns after a write and after an erase, and that every transaction keeps the
canonical form. Only a program and an erase touch the array.
-/

namespace Sys2Proof.Machine.Memory

variable {m : List Host.Cell} {lo a : Nat} {b : Byte}

theorem read_cons (c : Host.Cell) (m : List Host.Cell) (x : Nat) : read (c :: m) x = if c.1 = x then c.2 else read m x := rfl

/-- A cell in front of higher ones is read back, also if it is erased and so not listed. -/
theorem read_consCell (hm : wfAbove (a + 1) m = true) (x : Nat) :
    read (consCell a b m) x = if x = a then b else read m x := by
  unfold consCell
  split
  · rename_i hb
    split
    · rename_i hx
      rw [hx, hb, read_below (Nat.lt_succ_self a) hm]
    · rfl
  · simp only [read_cons, eq_comm]

theorem read_write (hm : wfAbove lo m = true) (x : Nat) : read (write m a b) x = if x = a then b else read m x := by
  induction m generalizing lo with
  | nil => exact read_consCell rfl x
  | cons c m ih =>
    obtain ⟨⟨-, hc⟩, hm'⟩ := wfAbove_cons.mp hm
    rw [write]
    split
    · exact read_consCell (wfAbove_cons.mpr ⟨⟨‹a < c.1›, hc⟩, hm'⟩) x
    · split
      · rename_i ha
        subst ha
        rw [read_consCell hm', read_cons]
        grind
      · rw [read_cons, ih hm', read_cons]
        grind

theorem read_eraseRange (m : List Host.Cell) (lo n x : Nat) :
    read (eraseRange m lo n) x = if lo ≤ x ∧ x < lo + n then erased else read m x := by
  induction m with
  | nil => simp [eraseRange, read]
  | cons c m ih =>
    unfold eraseRange at ih ⊢
    rw [List.filter_cons]
    split
    · rename_i hk
      simp only [Bool.or_eq_true, decide_eq_true_eq] at hk
      rw [read_cons, ih, read_cons]
      grind
    · rename_i hk
      simp only [Bool.or_eq_true, decide_eq_true_eq] at hk
      rw [ih, read_cons]
      grind

end Sys2Proof.Machine.Memory

namespace Sys2Proof.Machine

/-! ### Transactions -/

@[simp] theorem Chip.start_mem (c : Chip) : c.start.mem = c.mem := rfl

theorem programBytes_wf {m : List Host.Cell} (a i : Nat) (d : List Byte) (hm : Memory.wf m = true) :
    Memory.wf (programBytes a i m d) = true := by
  induction d generalizing i m with
  | nil => exact hm
  | cons b bs ih => exact ih _ (Memory.write_wf _ _ hm)

theorem Chip.eraseBlock_wf {c : Chip} (size : Nat) (out : List Byte) (hm : Memory.wf c.mem = true) :
    Memory.wf (c.eraseBlock size out).mem = true := by
  unfold Chip.eraseBlock
  split
  · exact Memory.eraseRange_wf _ _ hm
  · exact hm

/-- Every operation keeps the canonical form. -/
theorem Chip.perform_wf {c : Chip} (op : Operation) (out : List Byte) (hm : Memory.wf c.mem = true) :
    Memory.wf (c.perform op out).2.mem = true := by
  cases op with
  | pageProgram =>
    simp only [Chip.perform]
    split
    · exact programBytes_wf _ _ _ hm
    · exact hm
  | sectorErase => exact Chip.eraseBlock_wf 4096 out hm
  | block32Erase => exact Chip.eraseBlock_wf 32768 out hm
  | block64Erase => exact Chip.eraseBlock_wf 65536 out hm
  | chipErase =>
    simp only [Chip.perform]
    split
    · exact Memory.wf_nil
    · exact hm
  | writeEnable =>
    simp only [Chip.perform]
    split <;> exact hm
  | reset =>
    simp only [Chip.perform]
    split <;> exact hm
  | _ => exact hm

theorem Chip.answer_wf {c : Chip} (out : List Byte) (hm : Memory.wf c.mem = true) :
    Memory.wf (c.answer out).2.mem = true := by
  unfold Chip.answer
  split
  · simp only
    split <;> exact hm
  · split
    · exact hm
    · exact Chip.perform_wf _ out hm

/-- Settles O57: the laws of a write and of an erase, and every operation of the chip. -/
theorem referenceArrayIsCanonical : Obligations.ReferenceArrayIsCanonical :=
  ⟨fun _ a b hm => ⟨Memory.write_wf a b hm, Memory.read_write hm⟩,
    fun m lo n hm => ⟨Memory.eraseRange_wf lo n hm, Memory.read_eraseRange m lo n⟩,
    fun _ out hm => Chip.answer_wf out hm⟩

end Sys2Proof.Machine
end

section
/-!
PROOFS. A BLOCKING poll joined to the reference chip (O58). A block that transmits makes its one transaction with the chip's answer
(`Rig.step_transmit`); the command starts the chip (`Chip.answer_command`), and each status read of the poll then finds one fewer
read left that shows BUSY.
-/

namespace Sys2Proof.Machine

variable {s : State} {c : Chip} {rig : Rig} {i : Instr} {r : Request} {out : List Byte}

/-! ### One transaction with the chip -/

/-- A selected frame is what the next step transmits, unless the block is suspended or a request stands at its port. -/
theorem State.action_of_selected (hs : s.selected = some i) (hp : s.phase = .idle ∨ s.env.port = none)
    (hn : s.phase ≠ .suspended) : s.action = .transmit i := by
  have ht := State.transmission_eq.mpr hs
  rcases State.selected_cases hs with ⟨r, hq, hr, -⟩ | ⟨hq, -, -⟩ | ⟨r, hq, -, -⟩ | ⟨r, -, -, -, hq⟩ | ⟨a, d, hq, -, -⟩
  · simp [State.action, State.idleAction, hq, hr, ht]
  · simp_all [State.action]
  · simp_all [State.action]
  · rcases hq with hq | hq | ⟨hq, hv⟩ | ⟨hq, -⟩
    · simp_all [State.action]
    · simp_all [State.action]
    · simp_all [State.action, State.pollingAction]
    · exact absurd hq hn
  · simp_all [State.action]

/-- The block with an answer of the chip as that of its next transaction. -/
def State.feed (received : List Byte) (s : State) : State :=
  { s with env := { s.env with xferIn := .ok received :: s.env.xferIn } }

/-- The block transmits, the chip answers with as many bytes, and the block goes on with that answer. -/
theorem Rig.step_transmit (hf : rig.block.phase ≠ .faulted) (hs : rig.block.selected = some i)
    (hp : rig.block.env.port = none) (hn : rig.block.phase ≠ .suspended) (hw : i.wf = true)
    (hb : txBytes rig.block.params i = .ok out) (hl : (rig.chip.answer out).1.length = out.length) :
    rig.step = some
      { block := txOk rig.block.phase i (rig.chip.answer out).1
          (((rig.block.feed (rig.chip.answer out).1).counted i).afterXfer out)
        chip := (rig.chip.answer out).2 } := by
  have hout : rig.block.outgoing = some out := by
    obtain ⟨out', hb', he⟩ := txBytes_wf (p := rig.block.params) (State.selected_isFrame hs) hw
    cases hb.symm.trans hb'
    simp [State.outgoing, State.action_of_selected hs (.inr hp) hn, he]
  have hstep : Machine.step (rig.block.feed (rig.chip.answer out).1) =
      .next (txOk rig.block.phase i (rig.chip.answer out).1
        (((rig.block.feed (rig.chip.answer out).1).counted i).afterXfer out)) := by
    have ha : (rig.block.feed (rig.chip.answer out).1).action = .transmit i := State.action_of_selected hs (.inr hp) hn
    rw [Machine.step, ha]
    exact exec_frame_ok (s := rig.block.feed _) hf hs hb rfl hl
  unfold State.feed at hstep ⊢
  simp only [Rig.step, hout, hstep]

theorem Rig.run_succ {n : Nat} {rig' : Rig} (h : rig.step = some rig') : Rig.run (n + 1) rig = Rig.run n rig' := by
  rw [Rig.run, h]

/-! ### The chip's answers -/

/-- A powered chip performs the operation whose opcode the frame carries. -/
theorem Chip.answer_opcode (op : Operation) (rest : List Byte) (hpd : c.pd = false) :
    c.answer (opcode op :: rest) = ((c.perform op (opcode op :: rest)).1,
      { (c.perform op (opcode op :: rest)).2 with rstEn := op == .enableReset }) := by
  simp [Chip.answer, hpd]

/-- SR1 shows BUSY as long as status reads remain. -/
theorem Chip.busy_sr1 (c : Chip) : busy c.sr1 = decide (c.busyLeft ≠ 0) := by
  unfold Chip.sr1
  by_cases hb : c.busyLeft = 0 <;> cases c.wel <;> simp [hb, busy, Config.busyBit]

/-- A ready chip takes a program or an erase and starts (R65). -/
theorem Chip.perform_destructive {op : Operation} (out : List Byte) (hr : c.ready = true)
    (hd : destructiveOpcode (opcode op) = true) :
    ∃ mem, c.perform op out = (undriven out.length, Chip.start { c with mem := mem }) := by
  cases op with
  | pageProgram => exact ⟨_, by simp only [Chip.perform, hr, if_true]; rfl⟩
  | sectorErase => exact ⟨_, by simp only [Chip.perform, Chip.eraseBlock, hr, if_true]; rfl⟩
  | block32Erase => exact ⟨_, by simp only [Chip.perform, Chip.eraseBlock, hr, if_true]; rfl⟩
  | block64Erase => exact ⟨_, by simp only [Chip.perform, Chip.eraseBlock, hr, if_true]; rfl⟩
  | chipErase => exact ⟨_, by simp only [Chip.perform, hr, if_true]; rfl⟩
  | _ => exact absurd hd (by decide)

/-- R159: the command frame of a destructive request carries a destructive opcode. -/
theorem txBytes_commandFrame {p : Params} (hc : commandFrame r = some i) (hb : txBytes p i = .ok out) :
    ∃ op rest, out = opcode op :: rest ∧ destructiveOpcode (opcode op) = true := by
  unfold commandFrame at hc
  split at hc <;> cases hc
  case h_5 => cases hb; exact ⟨.chipErase, [], rfl, rfl⟩
  all_goals
    obtain ⟨-, rfl⟩ := frame_ok rfl hb
    exact ⟨_, _, rfl, rfl⟩

/-- R158: what follows an Ok of the command transaction; it is no status read. -/
theorem txOk_commandFrame (ph : Phase) (hc : commandFrame r = some i) :
    txOk ph i = commandSent ∧ i ≠ .txReadStatusRegister1 := by
  unfold commandFrame at hc
  split at hc <;> cases hc <;> exact ⟨rfl, nofun⟩

/-! ### The poll -/

/-- R161: BUSY 1 goes on with the poll. -/
theorem pollBranch_busy {received : List Byte} (h : busy (sr1 received) = true) (v : State) :
    pollBranch received v = v.goto .pollingBusy := by
  rw [pollBranch, if_pos h]

/-- R161: BUSY 0 ends the poll, in Verifying or in Complete. -/
theorem pollBranch_ready {received : List Byte} (h : busy (sr1 received) = false) (v : State) :
    (pollBranch received v).phase = if v.verifies then .verifying else .complete := by
  rw [pollBranch, if_neg (by simp [h])]
  split <;> rfl

/-- A BLOCKING block polls a chip that shows BUSY for `k` more status reads; with the last of them the chip's WEL is clear. -/
structure Rig.Polling (r : Request) (k : Nat) (rig : Rig) : Prop where
  variant : rig.block.variant = .blocking
  phase : rig.block.phase = .commandIssued ∨ rig.block.phase = .pollingBusy
  req : rig.block.req = some r
  destructive : r.destructive = true
  port : rig.block.env.port = none
  powered : rig.chip.pd = false
  busyLeft : rig.chip.busyLeft = k
  latch : k = 0 → rig.chip.wel = false

variable {k : Nat}

theorem Rig.Polling.selected (h : rig.Polling r k) : rig.block.selected = some .txReadStatusRegister1 := by
  rcases h.phase with hp | hp
  · simp [State.selected, hp, h.req, statusFrame_of_destructive h.destructive]
  · simp [State.selected, hp, h.req, h.variant, statusFrame_of_destructive h.destructive]

theorem Rig.Polling.phase_ne (h : rig.Polling r k) {p : Phase} (hi : p ≠ .commandIssued) (hb : p ≠ .pollingBusy) :
    rig.block.phase ≠ p := by
  rcases h.phase with hp | hp <;> rw [hp]
  · exact hi.symm
  · exact hb.symm

/-- The poll's next status read shows BUSY as long as more are to follow. -/
theorem Rig.Polling.busy_eq (h : rig.Polling r k) : busy (sr1 [0xFF, rig.chip.sr1]) = decide (k ≠ 0) :=
  h.busyLeft ▸ rig.chip.busy_sr1

/-- A step of the poll is a status read, which the chip answers with its SR1. -/
theorem Rig.Polling.step_eq (h : rig.Polling r k) : rig.step = some
    { block := pollBranch [0xFF, rig.chip.sr1]
        ((rig.block.feed [0xFF, rig.chip.sr1]).countRead.afterXfer [0x05, rig.block.params.fillByte])
      chip := { rig.chip.statusRead with rstEn := false } } := by
  have hw : rig.block.phase ≠ .writeEnableSent := h.phase_ne nofun nofun
  have ha : rig.chip.answer [0x05, rig.block.params.fillByte] =
      ([0xFF, rig.chip.sr1], { rig.chip.statusRead with rstEn := false }) :=
    Chip.answer_opcode .readStatusRegister1 [rig.block.params.fillByte] h.powered
  have hs := Rig.step_transmit (h.phase_ne nofun nofun) h.selected h.port (h.phase_ne nofun nofun) rfl
    (txBytes_txReadStatusRegister1 _) (by rw [ha]; rfl)
  rw [hs, ha, txOk_poll hw, State.counted_poll (s := rig.block.feed _) hw]

/-- A status read that shows BUSY leaves one fewer. -/
theorem Rig.Polling.step_busy (h : rig.Polling r (k + 1)) :
    ∃ rig', rig.step = some rig' ∧ rig'.Polling r k ∧ rig'.block.statusReads = rig.block.statusReads + 1 ∧
      rig'.block.verifies = rig.block.verifies := by
  have hb : busy (sr1 [0xFF, rig.chip.sr1]) = true := by rw [h.busy_eq]; rfl
  refine ⟨_, h.step_eq, ?_, ?_, ?_⟩ <;> rw [pollBranch_busy hb]
  · exact {
      variant := h.variant
      phase := .inr rfl
      req := h.req
      destructive := h.destructive
      port := h.port
      powered := h.powered
      busyLeft := by simp [Chip.statusRead, h.busyLeft]
      latch := by
        rintro rfl
        simp [Chip.statusRead, h.busyLeft] }
  · rfl
  · rfl

/-- The status read that shows BUSY 0 ends the poll. -/
theorem Rig.Polling.step_ready (h : rig.Polling r 0) :
    ∃ rig', rig.step = some rig' ∧ rig'.block.statusReads = rig.block.statusReads + 1 ∧
      rig'.block.phase = (if rig.block.verifies then .verifying else .complete) ∧
      rig'.chip.busyLeft = 0 ∧ rig'.chip.wel = false := by
  have hb : busy (sr1 [0xFF, rig.chip.sr1]) = false := by rw [h.busy_eq]; rfl
  refine ⟨_, h.step_eq, ?_, pollBranch_ready hb _, ?_, ?_⟩
  · obtain ⟨_, _, he⟩ := pollBranch_eq [0xFF, rig.chip.sr1]
      ((rig.block.feed [0xFF, rig.chip.sr1]).countRead.afterXfer [0x05, rig.block.params.fillByte])
    rw [he]
    rfl
  · simp [Chip.statusRead, h.busyLeft]
  · simp [Chip.statusRead, h.busyLeft, h.latch]

/-- R66: the poll ends after `k + 1` status reads. -/
theorem Rig.Polling.run (h : rig.Polling r k) :
    ∃ rig', Rig.run (k + 1) rig = some rig' ∧ rig'.block.statusReads = rig.block.statusReads + (k + 1) ∧
      rig'.block.phase = (if rig.block.verifies then .verifying else .complete) ∧
      rig'.chip.busyLeft = 0 ∧ rig'.chip.wel = false := by
  induction k generalizing rig with
  | zero =>
    obtain ⟨rig', hs, hrest⟩ := h.step_ready
    exact ⟨rig', Rig.run_succ hs, hrest⟩
  | succ k ih =>
    obtain ⟨rig₁, hs, h₁, hn, hv⟩ := h.step_busy
    obtain ⟨rig', hr, hn', hp, hchip⟩ := ih h₁
    exact ⟨rig', (Rig.run_succ hs).trans hr, by omega, hv ▸ hp, hchip⟩

/-- R158, R65: the command transaction starts the chip, and the poll begins with its count at 0. -/
theorem Rig.step_command (hv : rig.block.variant = .blocking) (hp : rig.block.phase = .confirmed)
    (hr : rig.block.req = some r) (hd : r.destructive = true) (hw : ∀ i, commandFrame r = some i → i.wf = true)
    (hport : rig.block.env.port = none) (hpd : rig.chip.pd = false) (hready : rig.chip.ready = true) :
    ∃ rig', rig.step = some rig' ∧ rig'.Polling r rig.chip.kBusy ∧ rig'.block.statusReads = 0 ∧
      rig'.block.verifies = rig.block.verifies := by
  obtain ⟨i, hi⟩ := Option.isSome_iff_exists.mp (commandFrame_isSome hd)
  have hs : rig.block.selected = some i := by simp [State.selected, hp, hr, hi]
  obtain ⟨out, hb, -⟩ := txBytes_wf (p := rig.block.params) (State.selected_isFrame hs) (hw i hi)
  obtain ⟨op, rest, rfl, hop⟩ := txBytes_commandFrame hi hb
  obtain ⟨mem, hperform⟩ := Chip.perform_destructive (c := rig.chip) (opcode op :: rest) hready hop
  have ha := Chip.answer_opcode op rest hpd
  rw [hperform] at ha
  have hstep := Rig.step_transmit (by simp [hp]) hs hport (by simp [hp]) (hw i hi) hb (by simp [ha, undriven])
  obtain ⟨hok, hi'⟩ := txOk_commandFrame rig.block.phase hi
  rw [ha, hok, State.counted_other hi'] at hstep
  refine ⟨_, hstep, ?_, rfl, rfl⟩
  exact {
    variant := hv
    phase := .inl rfl
    req := hr
    destructive := hd
    port := hport
    powered := hpd
    busyLeft := rfl
    latch := fun hk => if_pos hk }

/-- Settles O58: the command transaction, then the poll by induction on K_BUSY. -/
theorem referenceChipPollCount : Obligations.ReferenceChipPollCount := by
  intro rig r hv hp hr hd hw hport hpd hwel hbusy
  obtain ⟨rig₁, hs, h₁, hn, hver⟩ := Rig.step_command hv hp hr hd hw hport hpd (by simp [Chip.ready, hwel, hbusy])
  obtain ⟨rig', hrun, hn', hphase, hchip⟩ := h₁.run
  rw [hver] at hphase
  refine ⟨rig', ?_, by omega, ?_, ?_, hchip⟩
  · rw [Nat.add_comm 1, Rig.run_succ hs, hrun]
  · rintro ⟨a, d, rfl⟩ hback
    simp [hphase, State.verifies, hr, hback]
  · intro hno
    have : rig.block.verifies = false := by
      rcases hno with ⟨g, a, rfl⟩ | hno
      · simp [State.verifies, hr]
      · rw [State.verifies]
        split
        · exact hno
        · rfl
    simp [hphase, this]

end Sys2Proof.Machine
end

section
/-!
PROOFS. The decoders and the encoders agree: every well-formed instruction decodes from its encoding (O1), the frame decoder accepts
what the block emits and nothing else (O2), and the table's codes and words decode as written (O6, O7).
-/

namespace Sys2Proof

variable {p : Params} {op : Operation} {a : Addr} {rest tail bytes : List Byte} {i j : Instr} {r : Request} {v : Variant}

/-! ### Requests -/

/-- R87: only a SUSPENDING block refuses, and only a pin request. -/
theorem refusePins_permitted (h : v = .suspending → i.usesPin = false) : refusePins v i = .ok i := by
  rw [refusePins, if_neg]
  simpa using h

theorem refusePins_noPins (h : i.usesPin = true) : refusePins .suspending i = .error .noPins := by
  simp [refusePins, h]

/-- Settles O6: the row of each code, and the two pin codes by the variant. -/
theorem requestCodesDecode : Obligations.RequestCodesDecode := fun _ _ _ _ _ =>
  ⟨rfl, rfl, rfl, rfl, rfl, rfl, rfl, rfl, rfl, rfl, rfl, rfl, refusePins_permitted nofun, refusePins_permitted nofun,
    refusePins_noPins rfl, refusePins_noPins rfl, rfl, rfl⟩

theorem decode_request {w : RequestWord} (h : decodeRequest v w = .ok i) : decode v p (.request w) = .ok i := by
  rw [decode, h]

theorem decode_encode_request (hi : i.request? = some r) (hv : v = .suspending → i.usesPin = false) :
    decode v p (encode p i) = .ok i := by
  cases i with
  | setHold l => exact decode_request (refusePins_permitted hv)
  | setWp l => exact decode_request (refusePins_permitted hv)
  | capacity | model | read | program | eraseSector | eraseB32 | eraseB64 | eraseChip | uniqueId | powerDown
  | releasePowerDown | reset => rfl
  | _ => cases hi

/-! ### Frames: what is encoded decodes -/

theorem ofFrame_addr (ht : op.takesAddress = true) (ha : a.toNat < addrLimit) :
    Encoded.ofFrame (frame op a tail) = .frame (opcode op :: (addrBytes a ++ tail)) :=
  congrArg Encoded.ofFrame (frame_addr ht ha)

theorem decode_frame (h : decodeBody p op rest = .ok i) : decode v p (.frame (opcode op :: rest)) = .ok i := by
  rw [decode, decodeFrame_cons, h]

theorem decode_ofFrame_addr (ht : op.takesAddress = true) (ha : a.toNat < addrLimit)
    (h : decodeBody p op (addrBytes a ++ tail) = .ok i) : decode v p (.ofFrame (frame op a tail)) = .ok i := by
  rw [ofFrame_addr ht ha, decode_frame h]

theorem decode_encode_frame (hi : i.request? = none) (hw : i.wf = true) : decode v p (encode p i) = .ok i := by
  cases i with
  | txPageProgram a d =>
    simp only [Instr.wf, Bool.and_eq_true, decide_eq_true_eq] at hw
    obtain ⟨ha, hd⟩ := hw
    exact decode_ofFrame_addr rfl ha (decodeAddrWdata_addrBytes _ ha hd)
  | txReadData a n =>
    have ha := of_decide_eq_true hw
    exact decode_ofFrame_addr rfl ha (decodeAddrRdata_addrBytes p _ n ha)
  | txSectorErase a | txBlock32Erase a | txBlock64Erase a =>
    have ha := of_decide_eq_true hw
    exact decode_ofFrame_addr rfl ha (decodeAddr_addrBytes _ ha)
  | txReadStatusRegister1 => exact decode_frame (op := .readStatusRegister1) (decodeFill_self _ _)
  | txUniqueId => exact decode_frame (op := .uniqueId) (decodeFill_self _ _)
  | txWriteEnable | txChipErase | txEnableReset | txPowerDown | txReleasePowerDown | txReset => rfl
  | _ => cases hi

/-- Settles O1: a frame by its format's decoder, a request by its code. -/
theorem everyWellFormedInstructionDecodesBack : Obligations.EveryWellFormedInstructionDecodesBack := by
  intro v p i hw hv
  cases hi : i.request? with
  | none => exact decode_encode_frame hi hw
  | some r => exact decode_encode_request hi hv

/-! ### Frames: what decodes was encoded -/

theorem decodeBare_ok (h : decodeBare j rest = .ok i) : rest = [] ∧ i = j := by
  cases rest with
  | nil => cases h; exact ⟨rfl, rfl⟩
  | cons b bs => cases h

theorem decodeFill_ok (h : decodeFill tail j rest = .ok i) : rest = tail ∧ i = j := by
  unfold decodeFill at h
  split at h
  · split at h <;> cases h
    exact ⟨‹_›, rfl⟩
  · cases h

theorem decodeAddr_ok {f : Addr → Instr} (h : decodeAddr f rest = .ok i) :
    ∃ a : Addr, a.toNat < addrLimit ∧ rest = addrBytes a ∧ i = f a := by
  unfold decodeAddr at h
  split at h <;> cases h
  exact ⟨_, addrOfBytes_lt _ _ _, (addrBytes_addrOfBytes _ _ _).symm, rfl⟩

theorem decodeAddrWdata_ok {f : Addr → List Byte → Instr} (h : decodeAddrWdata f rest = .ok i) :
    ∃ (a : Addr) (d : List Byte), a.toNat < addrLimit ∧ d.length ≤ Config.pageSize ∧ rest = addrBytes a ++ d ∧ i = f a d := by
  unfold decodeAddrWdata at h
  split at h
  · split at h <;> cases h
    exact ⟨_, _, addrOfBytes_lt _ _ _, ‹_›, by rw [addrBytes_addrOfBytes]; rfl, rfl⟩
  · cases h

theorem decodeAddrRdata_ok {f : Addr → Nat → Instr} (h : decodeAddrRdata p f rest = .ok i) :
    ∃ (a : Addr) (n : Nat), a.toNat < addrLimit ∧ rest = addrBytes a ++ fill p n ∧ i = f a n := by
  unfold decodeAddrRdata at h
  split at h
  · split at h <;> cases h
    rename_i hr
    exact ⟨_, _, addrOfBytes_lt _ _ _, by rw [addrBytes_addrOfBytes, ← hr]; rfl, rfl⟩
  · cases h

/-- R75, R76: what follows an opcode decodes only to a well-formed instruction with that opcode, whose frame it completes. -/
theorem wf_and_encode_of_decodeBody (h : decodeBody p op rest = .ok i) :
    i.wf = true ∧ encode p i = .frame (opcode op :: rest) := by
  cases op with
  | pageProgram =>
    obtain ⟨a, d, ha, hd, rfl, rfl⟩ := decodeAddrWdata_ok h
    exact ⟨by simp [Instr.wf, fitsFrame, ha, hd], ofFrame_addr rfl ha⟩
  | readData =>
    obtain ⟨a, n, ha, rfl, rfl⟩ := decodeAddrRdata_ok h
    exact ⟨decide_eq_true ha, ofFrame_addr rfl ha⟩
  | sectorErase | block32Erase | block64Erase =>
    obtain ⟨a, ha, rfl, rfl⟩ := decodeAddr_ok h
    exact ⟨decide_eq_true ha, ofFrame_addr rfl ha⟩
  | readStatusRegister1 | uniqueId =>
    obtain ⟨rfl, rfl⟩ := decodeFill_ok h
    exact ⟨rfl, rfl⟩
  | writeEnable | chipErase | enableReset | powerDown | releasePowerDown | reset =>
    obtain ⟨rfl, rfl⟩ := decodeBare_ok h
    exact ⟨rfl, rfl⟩

theorem decodeFrame_ok (h : decodeFrame p bytes = .ok i) :
    ∃ op rest, bytes = opcode op :: rest ∧ decodeBody p op rest = .ok i := by
  cases bytes with
  | nil => cases h
  | cons b rest =>
    rw [decodeFrame] at h
    cases ho : operationOf b with
    | none => rw [ho] at h; cases h
    | some op =>
      rw [ho] at h
      exact ⟨op, rest, by rw [operationOf_some ho], h⟩

/-- Settles O2: byte 0 selects an operation, and its format's decoder accepts the bytes its encoder writes. -/
theorem frameDecoderAcceptsOnlyEmittedFrames : Obligations.FrameDecoderAcceptsOnlyEmittedFrames := by
  intro p bytes i h
  obtain ⟨op, rest, rfl, hb⟩ := decodeFrame_ok h
  exact wf_and_encode_of_decodeBody hb

/-- Settles O7: each word by the decoder's run on it. -/
theorem wordsOfTheSpecDecode : Obligations.WordsOfTheSpecDecode :=
  ⟨rfl, rfl, rfl, rfl, rfl, rfl, rfl, rfl, rfl⟩

end Sys2Proof
end

section
/-!
PROOFS. An input that spells nothing leaves the port or the host's queue and is marked, and nothing else changes (O23).
-/

namespace Sys2Proof.Machine

variable {s : State} {x : HostInput} {k : Refused}

/-! ### The presented input -/

theorem State.presented_port (h : s.env.port = some x) : s.presented = some x := by
  rw [State.presented, h]

theorem State.presented_queue {q : List HostInput} (h : s.env.port = none) (hq : s.env.hostQueue = x :: q) :
    s.presented = some x := by
  rw [State.presented, h, hq, List.head?_cons]

theorem State.consume_port (h : s.env.port = some x) : s.consume = { s with env := { s.env with port := none } } := by
  rw [State.consume, h]

theorem State.consume_queue {q : List HostInput} (h : s.env.port = none) (hq : s.env.hostQueue = x :: q) :
    s.consume = { s with env := { s.env with hostQueue := q } } := by
  rw [State.consume, h, hq, List.tail_cons]

/-! ### Its refusal -/

/-- R87: at Idle with no request latched, what does not decode is refused. -/
theorem State.action_undecodable (hp : s.phase = .idle) (hr : s.req = none) (hx : s.presented = some x)
    (hd : decodeInput s.variant x = .error k) : s.action = .refuse k := by
  simp [State.action, State.idleAction, hp, hr, hx, hd]

theorem step_undecodable (hp : s.phase = .idle) (hr : s.req = none) (hx : s.presented = some x)
    (hd : decodeInput s.variant x = .error k) : step s = .next (s.consume.markRefused k) := by
  rw [step, State.action_undecodable hp hr hx hd]

/-- Settles O23: the step is a refusal wherever the input stands, and the meaning of a pin request is its refusal. -/
theorem refusalsChangeNothingButTheMark : Obligations.RefusalsChangeNothingButTheMark := by
  refine ⟨fun s x k hp hr hd => ⟨fun h => ?_, fun q h hq => ?_⟩, fun s l hp hv => ⟨?_, ?_⟩⟩
  · rw [step_undecodable hp hr (State.presented_port h) hd, State.consume_port h]
    rfl
  · rw [step_undecodable hp hr (State.presented_queue h hq) hd, State.consume_queue h hq]
    rfl
  · exact State.acceptPin_refused hp hv
  · exact State.acceptPin_refused hp hv

end Sys2Proof.Machine
end

section
/-!
PROOFS. The geometry: the three instances and their derived sizes (O8), the validator's checks in their order and what a refusal
bars (O9), and the exact divisions an admitted geometry has (O10).
-/

namespace Sys2Proof

variable {d : GeometryDecl} {g : Geometry}

/-- Settles O8: the rows of R104, computed by R101 and R102. -/
theorem theThreeGeometries : Obligations.TheThreeGeometries := by
  unfold Obligations.TheThreeGeometries
  decide

/-! ### The validator -/

namespace GeometryDecl

/-- R105. -/
theorem v1_iff : d.v1 = true ↔ ∀ c, d.capacityDecl = some c → c = d.geom.pageSize * d.geom.nPages := by
  rcases d with ⟨g, _ | c⟩ <;> simp [v1, Geometry.capacity]

theorem v2_iff : d.v2 = true ↔ d.geom.pageSize = 256 := beq_iff_eq

theorem v3_iff : d.v3 = true ↔ 256 ≤ d.geom.nPages ∧ d.geom.nPages % 256 = 0 := by
  simp [v3]

theorem v4_iff : d.v4 = true ↔ d.geom.pageSize * d.geom.nPages ≤ 2 ^ 24 := decide_eq_true_iff

theorem validate_v1 (h1 : ¬ d.v1 = true) : d.validate = .error (.geometry .v1) := by
  simp [validate, h1]

theorem validate_v2 (h1 : d.v1 = true) (h2 : ¬ d.v2 = true) : d.validate = .error (.geometry .v2) := by
  simp [validate, h1, h2]

theorem validate_v3 (h1 : d.v1 = true) (h2 : d.v2 = true) (h3 : ¬ d.v3 = true) :
    d.validate = .error (.geometry .v3) := by
  simp [validate, h1, h2, h3]

theorem validate_v4 (h1 : d.v1 = true) (h2 : d.v2 = true) (h3 : d.v3 = true) (h4 : ¬ d.v4 = true) :
    d.validate = .error (.geometry .v4) := by
  simp [validate, h1, h2, h3, h4]

/-- R107: admission is by all four checks. -/
theorem validate_ok_iff : d.validate = .ok d.geom ↔ d.v1 = true ∧ d.v2 = true ∧ d.v3 = true ∧ d.v4 = true := by
  constructor
  · intro h
    have h1 : d.v1 = true := by_contra fun hn => by simp [validate_v1 hn] at h
    have h2 : d.v2 = true := by_contra fun hn => by simp [validate_v2 h1 hn] at h
    have h3 : d.v3 = true := by_contra fun hn => by simp [validate_v3 h1 h2 hn] at h
    have h4 : d.v4 = true := by_contra fun hn => by simp [validate_v4 h1 h2 h3 hn] at h
    exact ⟨h1, h2, h3, h4⟩
  · rintro ⟨h1, h2, h3, h4⟩
    simp [validate, h1, h2, h3, h4]

end GeometryDecl

namespace Geometry

/-- R106: without a declared capacity V1 holds, so V2 to V4 decide. -/
theorem admitted_iff : g.admitted = true ↔
    g.pageSize = 256 ∧ (256 ≤ g.nPages ∧ g.nPages % 256 = 0) ∧ g.pageSize * g.nPages ≤ 2 ^ 24 := by
  have h1 : (GeometryDecl.mk g none).v1 = true := rfl
  rw [admitted, beq_iff_eq, GeometryDecl.validate_ok_iff (d := ⟨g, none⟩), GeometryDecl.v2_iff, GeometryDecl.v3_iff,
    GeometryDecl.v4_iff]
  exact and_iff_right h1

/-- R105: a capacity declared for an admitted geometry is only to be its own. -/
theorem validate_of_admitted (hg : g.admitted = true) : (GeometryDecl.mk g (some g.capacity)).validate = .ok g := by
  obtain ⟨hp, hn, hc⟩ := admitted_iff.1 hg
  refine GeometryDecl.validate_ok_iff.2
    ⟨GeometryDecl.v1_iff.2 ?_, GeometryDecl.v2_iff.2 hp, GeometryDecl.v3_iff.2 hn, GeometryDecl.v4_iff.2 hc⟩
  rintro c ⟨⟩
  rfl

theorem instances_admitted : ∀ g ∈ [Config.geom4M, Config.geom8M, Config.geom16M], g.admitted = true := by decide

end Geometry

theorem Machine.construct_refused {k : Refused} (h : d.validate = .error k) (v : Variant) (b : Bool) (p : Params)
    (hold wp : PinResult) : Machine.construct v d b p hold wp = .refused k := by
  rw [Machine.construct, h]

/-- Settles O9: the checks in order, each clause by the first that fails. -/
theorem validatorNamesTheFirstFailedCheck : Obligations.ValidatorNamesTheFirstFailedCheck := by
  open GeometryDecl in
  refine ⟨fun g hg => ?_, fun d => ⟨?_, fun h1 => ⟨fun h2 => ?_, fun h2 => ⟨fun h3 => ?_, fun hle hmod => ?_⟩⟩, ?_⟩⟩
  · have ha := Geometry.instances_admitted g hg
    exact ⟨beq_iff_eq.1 ha, Geometry.validate_of_admitted ha⟩
  · rintro ⟨c, hc, hne⟩
    exact validate_v1 fun h1 => hne (v1_iff.1 h1 c hc)
  · exact validate_v2 (v1_iff.2 h1) (mt v2_iff.1 h2)
  · refine validate_v3 (v1_iff.2 h1) (v2_iff.2 h2) (mt v3_iff.1 ?_)
    omega
  · have h3 : d.v3 = true := v3_iff.2 ⟨hle, hmod⟩
    refine ⟨fun h4 => ?_, fun h4 => validate_ok_iff.2 ⟨v1_iff.2 h1, v2_iff.2 h2, h3, v4_iff.2 h4⟩⟩
    exact validate_v4 (v1_iff.2 h1) (v2_iff.2 h2) h3 (mt v4_iff.1 h4.not_ge)
  · exact fun k hk v b p hold wp => Machine.construct_refused hk v b p hold wp

/-! ### Exact division -/

namespace Geometry

/-! Each granularity covers `u` pages, `u` = 16, 128 or 256: its size is `u` pages, its count the `u`th part of them (R102). -/

theorem block32KSize_eq (g : Geometry) : g.block32KSize = g.pageSize * 128 := Nat.mul_assoc g.pageSize 16 8

theorem block64KSize_eq (g : Geometry) : g.block64KSize = g.pageSize * 256 := by
  rw [block64KSize, block32KSize_eq, Nat.mul_assoc]

theorem nBlocks32K_eq (g : Geometry) : g.nBlocks32K = g.nPages / 128 := Nat.div_div_eq_div_mul g.nPages 16 8

theorem nBlocks64K_eq (g : Geometry) : g.nBlocks64K = g.nPages / 256 := by
  rw [nBlocks64K, nBlocks32K_eq, Nat.div_div_eq_div_mul]

theorem count_mul_size {u : Nat} (hu : u ∣ g.nPages) : g.nPages / u * (g.pageSize * u) = g.capacity := by
  rw [Nat.mul_left_comm, Nat.div_mul_cancel hu, capacity]

theorem gsize_eq {gran : Granularity} {size : Nat} (h : g.gsize gran = some size) :
    ∃ u, u ∣ 256 ∧ size = g.pageSize * u := by
  cases gran with
  | sector => exact ⟨16, by decide, (Option.some.inj h).symm⟩
  | block32K => exact ⟨128, by decide, (Option.some.inj h).symm.trans g.block32KSize_eq⟩
  | block64K => exact ⟨256, by decide, (Option.some.inj h).symm.trans g.block64KSize_eq⟩
  | chip => cases h

end Geometry

/-- Settles O10: V3 makes the page count a multiple of 256, and each granularity covers a divisor of 256 in pages. -/
theorem admittedGeometriesDivideExactly : Obligations.AdmittedGeometriesDivideExactly := by
  intro g hg
  obtain ⟨hpage, ⟨hpages, hmod⟩, -⟩ := Geometry.admitted_iff.1 hg
  have hdvd : 256 ∣ g.nPages := Nat.dvd_of_mod_eq_zero hmod
  refine ⟨?_, ?_, ?_, fun gran size hs => ?_, ?_⟩
  · exact Geometry.count_mul_size (Nat.dvd_trans (by decide) hdvd)
  · rw [g.nBlocks32K_eq, g.block32KSize_eq]
    exact Geometry.count_mul_size (Nat.dvd_trans (by decide) hdvd)
  · rw [g.nBlocks64K_eq, g.block64KSize_eq]
    exact Geometry.count_mul_size hdvd
  · obtain ⟨u, hu, rfl⟩ := Geometry.gsize_eq hs
    exact ⟨Nat.mul_dvd_mul_left _ (hu.trans hdvd), Nat.dvd_mul_right _ _⟩
  · calc 65536 = 256 * 256 := rfl
      _ ≤ g.pageSize * g.nPages := Nat.mul_le_mul hpage.ge hpages

end Sys2Proof
end

section
/-!
PROOFS. The encoder: its pseudocode (O3), the binding opcode table (O5), and the laws that follow from the two (O4).
-/

namespace Sys2Proof

variable {op op' : Operation} {a a' : Addr}

/-- R122: the list R123 tests membership in is that of the address-taking operations. -/
theorem mem_addressTaking_iff :
    op ∈ [Operation.readData, .pageProgram, .sectorErase, .block32Erase, .block64Erase] ↔ op.takesAddress = true := by
  cases op <;> decide

/-- Settles O3: each branch of R123 is one of the encoder's three equations. -/
theorem encodeFollowsItsPseudocode : Obligations.EncodeFollowsItsPseudocode := by
  refine fun op a => ⟨fun hmem => ?_, fun hmem => ?_⟩
  · have ht := mem_addressTaking_iff.1 hmem
    exact ⟨encodeOp_out_of_range ht, encodeOp_addr ht⟩
  · exact encodeOp_bare (Bool.eq_false_iff.2 (mt mem_addressTaking_iff.2 hmem))

/-- Settles O5: the table row by row. -/
theorem opcodeTableIsBinding : Obligations.OpcodeTableIsBinding :=
  ⟨rfl, rfl, rfl, rfl, rfl, rfl, rfl, rfl, rfl, rfl, rfl, rfl, rfl, fun _ _ => opcode_injective⟩

/-! ### Injectivity -/

/-- Byte 0 is the opcode, whether or not an address follows it. -/
theorem encodeOp_eq_cons (op : Operation) (ha : a.toNat < addrLimit) :
    ∃ rest, encodeOp op a = .ok (opcode op :: rest) := by
  cases ht : op.takesAddress with
  | true => exact ⟨addrBytes a, encodeOp_addr ht ha⟩
  | false => exact ⟨[], encodeOp_bare ht⟩

/-- Byte 0 tells the operations apart. -/
theorem operation_eq_of_encodeOp_eq (ha : a.toNat < addrLimit) (ha' : a'.toNat < addrLimit)
    (h : encodeOp op a = encodeOp op' a') : op = op' := by
  obtain ⟨rest, hop⟩ := encodeOp_eq_cons op ha
  obtain ⟨rest', hop'⟩ := encodeOp_eq_cons op' ha'
  rw [hop, hop'] at h
  exact opcode_injective (List.cons.inj (Except.ok.inj h)).1

/-- An address that fits a frame is determined by its bytes, which spell it. -/
theorem addrBytes_injective (ha : a.toNat < addrLimit) (ha' : a'.toNat < addrLimit) (h : addrBytes a = addrBytes a') :
    a = a' := by
  simp only [addrBytes, List.cons.injEq, and_true] at h
  obtain ⟨hhi, hmid, hlo⟩ := h
  rw [← addrOfBytes_extract a ha, hhi, hmid, hlo, addrOfBytes_extract a' ha']

theorem address_eq_of_encodeOp_eq (ha : a.toNat < addrLimit) (ha' : a'.toNat < addrLimit) (ht : op.takesAddress = true)
    (h : encodeOp op a = encodeOp op a') : a = a' := by
  rw [encodeOp_addr ht ha, encodeOp_addr ht ha'] at h
  exact addrBytes_injective ha ha' (List.cons.inj (Except.ok.inj h)).2

/-- Settles O4: the bytes by the encoder's equations, the operation by byte 0, the address by the three bytes after it. -/
theorem encoderLawsHold : Obligations.EncoderLawsHold := by
  refine ⟨fun op a ha ht => ?_, fun op a _ ht => encodeOp_bare ht, fun op op' a a' ha ha' ht h => ?_,
    fun op op' a a' ha ha' _ h => operation_eq_of_encodeOp_eq ha ha' h, fun op a a' ht => ?_⟩
  · exact ⟨_, _, _, encodeOp_addr ht ha, addrBytes_value a ha⟩
  · obtain rfl := operation_eq_of_encodeOp_eq ha ha' h
    exact ⟨rfl, address_eq_of_encodeOp_eq ha ha' ht h⟩
  · rw [encodeOp_bare ht, encodeOp_bare ht]

end Sys2Proof
end

section
/-!
PROOFS. The accept step (R151): a request at Idle fails its checks or performs its first action, and that action's outcome is the
whole of the step (O15 to O20, O22, O24).
-/

namespace Sys2Proof.Machine

variable {s : State} {i f : Instr} {r : Request} {out received : List Byte}

/-! ### A request at Idle -/

/-- R151: a request whose checks pass performs its first transaction. -/
theorem exec_request_passed (hi : i.request? = some r) (hp : s.phase = .idle)
    (hv : requestVerdict s.geom s.params r = .pass) (hf : firstFrame r = some f) : exec i s = exec f (s.latch r) := by
  rw [exec_request hi (usesPin_of_firstFrame hf), hv, State.accept_pass hp, firstAction_frame hf]

/-- R153: a request that fails a check fails without a transaction. -/
theorem exec_request_failed {e : BlockError} (hi : i.request? = some r) (hp : s.phase = .idle)
    (hv : requestVerdict s.geom s.params r = .fail e) : exec i s = .next ((s.latch r).raise e) := by
  rw [exec_request hi (usesPin_of_verdict hv nofun), hv, State.accept_fail hp]

/-- R121: a request whose address fits no frame is the encoder's fault. -/
theorem exec_request_unencodable {k : ContractFault} (hi : i.request? = some r) (hp : s.phase = .idle)
    (hv : requestVerdict s.geom s.params r = .fault k) : exec i s = .next ((s.latch r).recordFault k) := by
  rw [exec_request hi (usesPin_of_verdict hv nofun), hv, State.accept_fault hp]

/-- R151: the pin requests of a BLOCKING block have no checks. -/
theorem State.acceptPin_blocking {p : Pin} {l : Level} (hp : s.phase = .idle) (hv : s.variant = .blocking) :
    s.acceptPin p l r = .next ((s.latch r).drivePin p l) := by
  rw [State.acceptPin_accepted (by simp [hv]), State.accept_pass hp]

theorem State.setLevel_some {p : Pin} {v : PinLevel} {q : PinLevels} (h : s.pins = some q) :
    s.setLevel p v = { s with pins := some (match p with | .hold => { q with hold := v } | .wp => { q with wp := v }) } := by
  rw [State.setLevel, h]
  rfl

theorem State.acceptPin_ok {p : Pin} {l : Level} {q : PinLevels} (hp : s.phase = .idle) (hv : s.variant = .blocking)
    (hq : s.pins = some q) (hx : s.pinAnswer = .ok) :
    s.acceptPin p l r = .next { s.afterPin p l with
      phase := .complete, req := some r, suspensions := 0, result := some .nothing
      pins := some (match p with
        | .hold => { q with hold := recordedLevel l .ok }
        | .wp => { q with wp := recordedLevel l .ok }) } := by
  rw [State.acceptPin_blocking hp hv, State.drivePin, State.latch_pinAnswer, hx,
    State.setLevel_some (s := (s.latch r).afterPin p l) hq]
  rfl

/-- R28: after a failed pin write the pin's level is unknown. -/
theorem State.acceptPin_err {p : Pin} {l : Level} {q : PinLevels} {e : PinErr} (hp : s.phase = .idle)
    (hv : s.variant = .blocking) (hq : s.pins = some q) (hx : s.pinAnswer = .err e) :
    s.acceptPin p l r = .next { s.afterPin p l with
      phase := .failed (.pinError e), req := some r, suspensions := 0
      pins := some (match p with | .hold => { q with hold := .unknown } | .wp => { q with wp := .unknown }) } := by
  rw [State.acceptPin_blocking hp hv, State.drivePin, State.latch_pinAnswer, hx,
    State.setLevel_some (s := (s.latch r).afterPin p l) hq]
  rfl

/-! ### The first transaction -/

theorem State.selected_first (hp : s.phase = .idle) (hr : s.req = some r) (hf : firstFrame r = some f) :
    s.selected = some f := by
  simp [State.selected, hp, hr, hf]

theorem exec_firstFrame_ok (hp : s.phase = .idle) (hr : s.req = some r) (hf : firstFrame r = some f)
    (hb : txBytes s.params f = .ok out) (hx : s.xferAnswer = .ok received) (hl : received.length = out.length) :
    exec f s = .next (txOk .idle f received (s.afterXfer out)) := by
  have hc : f ≠ .txReadStatusRegister1 := by
    rintro rfl
    cases r <;> cases hf
  rw [exec_frame_ok (by simp [hp]) (State.selected_first hp hr hf) hb hx hl, hp, State.counted_other hc]

theorem exec_firstFrame_err {e : TransportErr} (hp : s.phase = .idle) (hr : s.req = some r) (hf : firstFrame r = some f)
    (hb : txBytes s.params f = .ok out) (hx : s.xferAnswer = .err e) :
    exec f s = .next { s.afterXfer out with phase := .failed (.transportError e) } := by
  have hs := State.selected_first hp hr hf
  rw [exec_frame_err (by simp [hp]) hs hb hx, txErr_move hs]
  simp [hp, Phase.afterCommand]

theorem exec_request_ok (hi : i.request? = some r) (hp : s.phase = .idle)
    (hv : requestVerdict s.geom s.params r = .pass) (hf : firstFrame r = some f) (hb : txBytes s.params f = .ok out)
    (hx : s.xferAnswer = .ok received) (hl : received.length = out.length) :
    exec i s = .next (txOk .idle f received ((s.latch r).afterXfer out)) := by
  rw [exec_request_passed hi hp hv hf]
  exact exec_firstFrame_ok (s := s.latch r) hp rfl hf hb hx hl

theorem exec_request_err {e : TransportErr} (hi : i.request? = some r) (hp : s.phase = .idle)
    (hv : requestVerdict s.geom s.params r = .pass) (hf : firstFrame r = some f) (hb : txBytes s.params f = .ok out)
    (hx : s.xferAnswer = .err e) :
    exec i s = .next { s.afterXfer out with phase := .failed (.transportError e), req := some r, suspensions := 0 } := by
  rw [exec_request_passed hi hp hv hf]
  exact exec_firstFrame_err (s := s.latch r) hp rfl hf hb hx

/-- R170: outside Verifying the bytes after the first four are a read's payload. -/
theorem readDone_read {n : Nat} (h : s.phase ≠ .verifying) :
    readDone n received s = s.finish (.bytes (readBytes received n)) := by
  unfold readDone
  split
  · exact absurd ‹_› h
  · rfl

theorem length_readFrame (p : Params) (a : Addr) (n : Nat) :
    (opcode .readData :: addrBytes a ++ fill p n).length = 4 + n := by
  simp
  omega

theorem length_uidFrame (p : Params) : (0x4B :: uidTail p).length = 5 + p.uidLen := by
  simp [uidTail, Config.uidDummyLen]
  omega

/-- R156: the first transaction of a destructive request is WriteEnable. -/
theorem firstFrame_of_destructive (h : r.destructive = true) : firstFrame r = some .txWriteEnable := by
  cases r with
  | program a d => rfl
  | erase g a => rfl
  | _ => cases h

/-! ### The obligations -/

/-- Settles O15: two requests without a check and without a transaction. -/
theorem capacityAndModelComplete : Obligations.CapacityAndModelComplete := by
  intro s hp
  refine ⟨?_, ?_⟩
  · rw [exec, execCapacity, State.accept_pass hp]
    rfl
  · rw [exec, execModel, State.accept_pass hp]
    rfl

/-- Settles O16: the verdict of the bound, then of the encoder's precondition, then the transaction's outcome. -/
theorem readFollowsItsRule : Obligations.ReadFollowsItsRule := by
  intro s a n hp
  refine ⟨fun hb => ?_, fun hb => ⟨fun ha => ?_, fun ha => ?_⟩⟩
  · exact exec_request_failed rfl hp (checkRead_outOfBounds hb)
  · exact exec_request_unencodable rfl hp ((checkRead_inBounds hb).trans (checkFrameAddr_fault ha))
  have hv : requestVerdict s.geom s.params (.read a n) = .pass := (checkRead_inBounds hb).trans (checkFrameAddr_pass ha)
  refine ⟨fun received hx hl => ?_, fun e hx => ?_⟩
  · rw [exec_request_ok rfl hp hv rfl (frame_addr rfl ha) hx (hl.trans (length_readFrame _ a n).symm), txOk_txReadData,
      readDone_read (by simp [hp])]
    rfl
  · exact exec_request_err rfl hp hv rfl (frame_addr rfl ha) hx

/-- Settles O17: the verdict of each check. -/
theorem programChecksComeBeforeTraffic : Obligations.ProgramChecksComeBeforeTraffic := by
  intro s a d hp
  refine ⟨fun hb => ?_, fun hb => ⟨fun hc ho => ?_, fun ho ha => ?_⟩⟩
  · have hv : requestVerdict s.geom s.params (.program a d) = _ := checkProgram_boundary hb
    rw [exec_request_failed rfl hp hv, boundaryError]
    simp only [decide_eq_true_eq]
    rfl
  · exact exec_request_failed rfl hp (checkProgram_outOfBounds hb hc ho)
  · exact exec_request_unencodable rfl hp ((checkProgram_inBounds hb ho).trans (checkFrameAddr_fault ha))

/-- Settles O18: the verdict of each check, the same for the three granularities. -/
theorem eraseChecksComeBeforeTraffic : Obligations.EraseChecksComeBeforeTraffic := by
  intro s a i g size hp hi
  obtain ⟨hr, hs⟩ : i.request? = some (.erase g a) ∧ s.geom.gsize g = some size := by
    rcases hi with ⟨rfl, rfl, rfl⟩ | ⟨rfl, rfl, rfl⟩ | ⟨rfl, rfl, rfl⟩ <;> exact ⟨rfl, rfl⟩
  refine ⟨fun hm => ?_, fun hm => ⟨fun hc ho => ?_, fun ho ha => ?_⟩⟩
  · exact exec_request_failed hr hp (checkErase_notAligned hs hm)
  · exact exec_request_failed hr hp (checkErase_outOfBounds hs hm hc ho)
  · exact exec_request_unencodable hr hp ((checkErase_inBounds hs hm ho).trans (checkFrameAddr_fault ha))

/-- Settles O19: in each of the five cases the verdict is a pass, and the first transaction is WriteEnable. -/
theorem destructiveRequestsIssueWriteEnable : Obligations.DestructiveRequestsIssueWriteEnable := by
  intro s a d i r hp hi
  obtain ⟨hr, hv, hd⟩ : i.request? = some r ∧ requestVerdict s.geom s.params r = .pass ∧ r.destructive = true := by
    rcases hi with ⟨rfl, rfl, hb, ho, ha⟩ | ⟨rfl, rfl, hm, ho, ha⟩ | ⟨rfl, rfl, hm, ho, ha⟩ | ⟨rfl, rfl, hm, ho, ha⟩ |
        ⟨rfl, rfl⟩
    · exact ⟨rfl, (checkProgram_inBounds hb ho).trans (checkFrameAddr_pass ha), rfl⟩
    · exact ⟨rfl, (checkErase_inBounds (gran := .sector) rfl hm ho).trans (checkFrameAddr_pass ha), rfl⟩
    · exact ⟨rfl, (checkErase_inBounds (gran := .block32K) rfl hm ho).trans (checkFrameAddr_pass ha), rfl⟩
    · exact ⟨rfl, (checkErase_inBounds (gran := .block64K) rfl hm ho).trans (checkFrameAddr_pass ha), rfl⟩
    · exact ⟨rfl, rfl, rfl⟩
  have hf := firstFrame_of_destructive hd
  exact ⟨fun received hx hl => exec_request_ok hr hp hv hf rfl hx hl, fun e hx => exec_request_err hr hp hv hf rfl hx⟩

/-- Settles O20: three requests without checks, each one transaction. -/
theorem identifierAndPowerRequests : Obligations.IdentifierAndPowerRequests := by
  intro s hp
  have huid := txBytes_txUniqueId s.params
  have hdown := txBytes_txPowerDown s.params
  have hrelease := txBytes_txReleasePowerDown s.params
  refine ⟨fun received hx hl => ?_, fun received hx hl => ⟨?_, ?_⟩, fun e hx => ⟨?_, ?_, ?_⟩⟩
  · exact exec_request_ok rfl hp rfl rfl huid hx (hl.trans (length_uidFrame s.params).symm)
  · exact exec_request_ok rfl hp rfl rfl hdown hx hl
  · exact exec_request_ok rfl hp rfl rfl hrelease hx hl
  · exact exec_request_err rfl hp rfl rfl huid hx
  · exact exec_request_err rfl hp rfl rfl hdown hx
  · exact exec_request_err rfl hp rfl rfl hrelease hx

/-- Settles O22: the pin write's outcome. -/
theorem pinRequestsDriveTheirPin : Obligations.PinRequestsDriveTheirPin := by
  intro s l q hp hv hq
  refine ⟨fun hx => ⟨?_, ?_⟩, fun e hx => ⟨?_, ?_⟩⟩
  · exact State.acceptPin_ok (p := .hold) hp hv hq hx
  · exact State.acceptPin_ok (p := .wp) hp hv hq hx
  · exact State.acceptPin_err (p := .hold) hp hv hq hx
  · exact State.acceptPin_err (p := .wp) hp hv hq hx

/-- Settles O24: each first frame and what its Ok does. -/
theorem firstFramesComplete : Obligations.FirstFramesComplete := by
  intro s r hp hr
  refine ⟨fun received hx hl => ⟨?_, ?_, ?_, ?_⟩, ?_, ?_⟩
  · exact fun hd => exec_firstFrame_ok hp hr (firstFrame_of_destructive hd) rfl hx hl
  · rintro rfl
    exact exec_firstFrame_ok hp hr rfl rfl hx hl
  · rintro rfl
    exact exec_firstFrame_ok hp hr rfl rfl hx hl
  · rintro rfl
    exact exec_firstFrame_ok hp hr rfl rfl hx hl
  · rintro received hx hl rfl
    exact exec_firstFrame_ok hp hr rfl rfl hx (hl.trans (length_uidFrame s.params).symm)
  · rintro a n received hx hl rfl ha
    rw [exec_firstFrame_ok hp hr rfl (frame_addr rfl ha) hx (hl.trans (length_readFrame _ a n).symm), txOk_txReadData,
      readDone_read (by simp [hp])]
    rfl

end Sys2Proof.Machine
end

section
/-!
PROOFS. The step runs what the phase, the latched request and the inputs select (O32, O33), the respond step (O34), and a request
presented in another phase than Idle (O36).
-/

namespace Sys2Proof.Machine

variable {s : State} {i : Instr} {r : Request} {x : HostInput}

/-! ### What a step runs -/

/-- R151: at Idle with no request latched, what decodes is accepted. -/
theorem step_accept (hp : s.phase = .idle) (hr : s.req = none) (hx : s.presented = some x)
    (hd : decodeInput s.variant x = .ok i) : step s = exec i s.consume := by
  have ha : s.action = .accept i := by simp [State.action, State.idleAction, hp, hr, hx, hd]
  rw [step, ha]

/-- R150: the frame the tables select is sent. -/
theorem step_selected (hs : s.selected = some i) (hp : s.phase = .idle ∨ s.env.port = none) (hn : s.phase ≠ .suspended) :
    step s = exec i s := by
  rw [step, State.action_of_selected hs hp hn]

/-- R201: a Resume is delivered and the status read is made. -/
theorem step_resume {q : List SchedInput} (hs : s.selected = some i) (hp : s.phase = .suspended) (hport : s.env.port = none)
    (hq : s.env.schedIn = .resume :: q) : step s = exec .txReadStatusRegister1 s.resume := by
  have ha : s.action = .resume := by simp [State.action, State.suspendedAction, hp, hport, hs, hq]
  rw [step, ha]

/-- R201: a Suspended block sends status reads alone. -/
theorem State.selected_suspended (hs : s.selected = some i) (hp : s.phase = .suspended) : i = .txReadStatusRegister1 := by
  rcases State.selected_cases hs with ⟨_, h, -⟩ | ⟨h, -⟩ | ⟨_, h, -⟩ | ⟨_, -, -, h, -⟩ | ⟨_, _, h, -⟩
  case inr.inr.inr.inl => exact h
  all_goals simp [hp] at h

/-- Settles O32: the three ways a step comes to an instruction. -/
theorem stepRunsTheDecodedInstruction : Obligations.StepRunsTheDecodedInstruction := by
  refine ⟨fun s x i hp hr hd => ⟨fun h => ?_, fun q h hq => ?_⟩, fun s i => step_selected, fun s i q hs hp hport hq => ?_⟩
  · rw [step_accept hp hr (State.presented_port h) hd, State.consume_port h]
  · rw [step_accept hp hr (State.presented_queue h hq) hd, State.consume_queue h hq]
  · rw [step_resume hs hp hport hq, State.selected_suspended hs hp, State.resume, hq, List.tail_cons]

/-! ### A placed table word -/

/-- R87: what a BLOCKING block decodes a SUSPENDING one decodes too, but for the pin requests. -/
theorem decodeRequest_ok_of_blocking {v : Variant} {w : RequestWord} (h : decodeRequest .blocking w = .ok i)
    (hv : v = .suspending → i.usesPin = false) : decodeRequest v w = .ok i := by
  unfold decodeRequest at h ⊢
  split at h
  case h_13 | h_14 =>
    rw [refusePins_ok h] at hv ⊢
    exact refusePins_permitted hv
  all_goals exact h

theorem request?_eq_none_of_decodeFrame {p : Params} {bytes : List Byte} (h : decodeFrame p bytes = .ok i) :
    i.request? = none := by
  obtain ⟨-, he⟩ := frameDecoderAcceptsOnlyEmittedFrames p bytes i h
  cases i with
  | txPageProgram | txReadData | txReadStatusRegister1 | txWriteEnable | txSectorErase | txUniqueId | txBlock32Erase
  | txBlock64Erase | txChipErase | txEnableReset | txPowerDown | txReleasePowerDown | txReset => rfl
  | _ => cases he

/-- Every command frame has a place, and there the tables select it. -/
theorem framePosition_selected (hi : i.request? = none) :
    ∃ p r, framePosition i = some (p, r) ∧ (s.placeFrame p r).selected = some i ∧ p ≠ .suspended := by
  cases i with
  | txPageProgram | txReadData | txReadStatusRegister1 | txWriteEnable | txSectorErase | txUniqueId | txBlock32Erase
  | txBlock64Erase | txChipErase | txEnableReset | txPowerDown | txReleasePowerDown | txReset =>
    exact ⟨_, _, rfl, rfl, nofun⟩
  | _ => cases hi

/-- A frame is placed where the next step sends it. -/
theorem step_placeFrame {p : Phase} (hs : (s.placeFrame p r).selected = some i) (hp : p ≠ .suspended) :
    step (s.placeFrame p r) = exec i (s.placeFrame p r) :=
  step_selected hs (.inr rfl) hp

theorem step_placeRecord {w : RequestWord} (hd : decodeRequest s.variant w = .ok i) :
    step (s.placeRecord w) = exec i { s with phase := .idle, req := none, env := { s.env with port := none } } := by
  have hx : decodeInput (s.placeRecord w).variant (.record w) = .ok i := hd
  rw [step_accept rfl rfl (State.presented_port rfl) hx, State.consume_port rfl]
  rfl

theorem toOption_eq_some {ε α : Type} {e : Except ε α} {x : α} (h : e.toOption = some x) : e = .ok x := by
  cases e with
  | ok y => cases h; rfl
  | error k => cases h

/-- Settles O33: a word of the request port as a record, any other as a frame at its place. -/
theorem aPlacedWordRunsNext : Obligations.APlacedWordRunsNext := by
  intro s nbits w i h
  by_cases hw : isPortWord nbits w = true
  · have hd : decodeRequest .blocking (tableRecord w) = .ok i := by
      rw [decodeTableWord, if_pos hw] at h
      exact toOption_eq_some h
    have hi := request_of_decodeRequest hd
    refine ⟨fun hn => ?_, fun _ hv => ?_⟩
    · simp [hn] at hi
    · rw [State.withFetchWord, State.placeWord, if_pos hw]
      exact step_placeRecord (decodeRequest_ok_of_blocking hd hv)
  · have hi : i.request? = none := by
      rw [decodeTableWord, if_neg hw] at h
      exact request?_eq_none_of_decodeFrame (toOption_eq_some h)
    refine ⟨fun _ => ?_, fun hn => absurd hi hn⟩
    obtain ⟨p, r, hf, hs, hp⟩ := framePosition_selected (s := s) hi
    have hplace : s.withFetchWord nbits w = s.placeFrame p r := by
      rw [State.withFetchWord, State.placeWord, if_neg hw, h, Option.bind_some, hf]
    rw [hplace, step_placeFrame hs hp]

/-! ### The respond step -/

/-- R154: the respond step of Complete and of Failed. -/
theorem step_respond (hp : s.phase = .complete ∨ ∃ e, s.phase = .failed e) (hport : s.env.port = none) :
    step s = .next s.deliver := by
  have ha : s.action = .respond := by
    rcases hp with hp | ⟨e, hp⟩ <;> simp [State.action, hp, hport]
  rw [step, ha]

theorem State.response_complete {p : Payload} (hp : s.phase = .complete) (hr : s.result = some p) : s.response = .ok p := by
  rw [State.response, hp, hr]
  rfl

theorem State.response_failed {e : BlockError} (hp : s.phase = .failed e) : s.response = .err e e.generic := by
  rw [State.response, hp]

/-- Settles O34: the respond step with its response, and the accept step after it. -/
theorem respondReturnsToIdle : Obligations.RespondReturnsToIdle := by
  intro s hport
  refine ⟨fun p hp hr => ?_, fun e hp => ?_, fun e x q i hp hq hd => ?_⟩
  · rw [step_respond (.inl hp) hport, State.deliver, State.response_complete hp hr]
  · rw [step_respond (.inr ⟨e, hp⟩) hport, State.deliver, State.response_failed hp]
  · obtain ⟨haccept, -⟩ := stepRunsTheDecodedInstruction
    exact ⟨s.deliver, step_respond (.inr ⟨e, hp⟩) hport, rfl, (haccept s.deliver x i rfl rfl hd).2 q hport hq⟩

/-! ### Concurrent use -/

/-- R243: a request at the port of a busy block. -/
theorem step_concurrent (hp : s.phase ≠ .idle) (hf : s.phase ≠ .faulted) (hx : s.env.port = some x) :
    step s = .next s.concurrentUse := by
  have ha : s.action = .concurrent := by
    unfold State.action
    split
    · exact absurd ‹_› hf
    · exact absurd ‹_› hp
    · rw [hx, Option.isSome_some, if_pos rfl]
  rw [step, ha]

/-- R152: a request executed in any phase but Idle. -/
theorem exec_request_concurrent (hi : i.request? = some r) (hp : s.phase ≠ .idle) (hf : s.phase ≠ .faulted) :
    exec i s = .next (s.recordFault .concurrentUse) := by
  cases hu : r.usesPin with
  | true =>
    obtain ⟨p, l, he, -⟩ := exec_pinRequest hi hu s
    rw [he, State.acceptPin_accepted fun h => absurd h hp, State.accept_concurrent hp hf]
  | false => rw [exec_request hi hu, State.accept_concurrent hp hf]

/-- Settles O36: at the port, as an instruction, and no step at all from Faulted. -/
theorem concurrentUseFaults : Obligations.ConcurrentUseFaults := by
  refine ⟨fun s x hp hf hx => ?_, fun s i hi hp hf => ?_, fun s _ hp _ => step_faulted hp⟩
  · rw [step_concurrent hp hf hx, State.concurrentUse, State.consume_port hx]
    rfl
  · obtain ⟨r, hr⟩ := Option.ne_none_iff_exists'.mp hi
    exact exec_request_concurrent hr hp hf

end Sys2Proof.Machine
end

section
/-!
PROOFS. The frames sent after the accept step: the second of reset's pair (O21), the confirmation (O25), the command transaction (O26),
the status reads of the poll (O27), the readback (O28), and the error of any of them (O29).
-/

namespace Sys2Proof.Machine

variable {s : State} {i : Instr} {r : Request} {out received : List Byte}

/-! ### Reset -/

theorem State.selected_reset (hp : s.phase = .resetEnableSent) (hr : s.req = some .reset) : s.selected = some .txReset := by
  rw [State.selected, hp, hr]

theorem exec_txReset_ok (hp : s.phase = .resetEnableSent) (hr : s.req = some .reset) (hx : s.xferAnswer = .ok received)
    (hl : received.length = 1) :
    exec .txReset s = .next { s.afterXfer [0x99] with phase := .complete, result := some .nothing } := by
  rw [exec_frame_ok (by simp [hp]) (State.selected_reset hp hr) (txBytes_txReset _) hx hl,
    State.counted_other (i := .txReset) nofun]
  rfl

theorem exec_txReset_err {e : TransportErr} (hp : s.phase = .resetEnableSent) (hr : s.req = some .reset)
    (hx : s.xferAnswer = .err e) :
    exec .txReset s = .next { s.afterXfer [0x99] with phase := .failed (.transportError e) } := by
  have hs := State.selected_reset hp hr
  rw [exec_frame_err (by simp [hp]) hs (txBytes_txReset _) hx, txErr_move hs]
  simp [hp, Phase.afterCommand]

/-- Settles O21: EnableReset in the accept step, Reset in the next. -/
theorem resetSendsThePair : Obligations.ResetSendsThePair := by
  intro s
  have hb := txBytes_txEnableReset s.params
  refine ⟨fun hp => ⟨fun received hx hl => ?_, fun e hx => ?_⟩, fun hp hr hport => ?_⟩
  · exact exec_request_ok rfl hp rfl rfl hb hx hl
  · exact exec_request_err rfl hp rfl rfl hb hx
  have hstep : step s = exec .txReset s := step_selected (State.selected_reset hp hr) (.inr hport) (by simp [hp])
  refine ⟨fun received hx hl => ⟨?_, ?_⟩, fun e hx => ?_⟩
  · rw [hstep, exec_txReset_ok hp hr hx hl]
  · exact exec_txReset_ok hp hr hx hl
  · rw [hstep, exec_txReset_err hp hr hx]

/-! ### The confirmation -/

theorem State.selected_confirmation (hp : s.phase = .writeEnableSent) (hr : s.req = some r) (hd : r.destructive = true) :
    s.selected = some .txReadStatusRegister1 := by
  rw [State.selected, hp, hr]
  exact statusFrame_of_destructive hd

/-- R157: the confirmation is one status read, which is not counted. -/
theorem exec_confirmation (hp : s.phase = .writeEnableSent) (hr : s.req = some r) (hd : r.destructive = true)
    (hx : s.xferAnswer = .ok received) (hl : received.length = 2) :
    exec .txReadStatusRegister1 s = .next (confirmLatch received (s.afterXfer [0x05, s.params.fillByte])) := by
  rw [exec_frame_ok (by simp [hp]) (State.selected_confirmation hp hr hd) (txBytes_txReadStatusRegister1 _) hx hl,
    txOk_confirmation hp, State.counted_confirmation hp]

theorem confirmLatch_set {v : State} (h : wel v.params (sr1 received) = true) :
    confirmLatch received v = v.goto .confirmed := by
  rw [confirmLatch, if_pos h]

theorem confirmLatch_clear {v : State} (h : wel v.params (sr1 received) = false) :
    confirmLatch received v = v.raise .writeEnableFail := by
  rw [confirmLatch, if_neg (by simp [h])]

/-- Settles O25: the confirmation's two answers and its error. -/
theorem confirmationTestsTheLatch : Obligations.ConfirmationTestsTheLatch := by
  intro s r hp hr hd
  have hs := State.selected_confirmation hp hr hd
  refine ⟨fun hport => ?_, fun b0 sr hx => ⟨fun hw => ?_, fun hw => ?_⟩, fun e hx => ?_⟩
  · exact step_selected hs (.inr hport) (by simp [hp])
  · rw [exec_confirmation hp hr hd hx rfl, confirmLatch_set (received := [b0, sr]) (v := s.afterXfer _) hw]
    rfl
  · rw [exec_confirmation hp hr hd hx rfl, confirmLatch_clear (received := [b0, sr]) (v := s.afterXfer _) hw]
    rfl
  · rw [exec_frame_err (by simp [hp]) hs (txBytes_txReadStatusRegister1 _) hx, txErr_move hs]
    simp [hp, Phase.afterCommand]

/-! ### The command transaction -/

theorem State.selected_command (hp : s.phase = .confirmed) (hr : s.req = some r) : s.selected = commandFrame r := by
  rw [State.selected, hp, hr]

/-- R158: the command transaction. -/
theorem exec_command (hp : s.phase = .confirmed) (hr : s.req = some r) (hc : commandFrame r = some i)
    (hb : txBytes s.params i = .ok out) (hx : s.xferAnswer = .ok received) (hl : received.length = out.length) :
    exec i s = .next (commandSent received (s.afterXfer out)) := by
  obtain ⟨hok, hi⟩ := txOk_commandFrame s.phase hc
  rw [exec_frame_ok (by simp [hp]) ((State.selected_command hp hr).trans hc) hb hx hl, hok, State.counted_other hi]

/-- Settles O26: each command is the frame of its request. -/
theorem commandIsOneTransaction : Obligations.CommandIsOneTransaction := by
  intro s a d i out hp hi
  obtain ⟨r, hr, hc, hb⟩ : ∃ r, s.req = some r ∧ commandFrame r = some i ∧ txBytes s.params i = .ok out := by
    rcases hi with ⟨rfl, hr, ha, rfl⟩ | ⟨rfl, hr, ha, rfl⟩ | ⟨rfl, hr, ha, rfl⟩ | ⟨rfl, hr, ha, rfl⟩ | ⟨rfl, hr, rfl⟩
    · exact ⟨_, hr, rfl, frame_addr rfl ha⟩
    · exact ⟨_, hr, rfl, frame_addr rfl ha⟩
    · exact ⟨_, hr, rfl, frame_addr rfl ha⟩
    · exact ⟨_, hr, rfl, frame_addr rfl ha⟩
    · exact ⟨_, hr, rfl, rfl⟩
  refine ⟨fun hport => ?_, fun received hx hl => ?_⟩
  · exact step_selected ((State.selected_command hp hr).trans hc) (.inr hport) (by simp [hp])
  · exact exec_command hp hr hc hb hx hl

/-! ### The status reads of the poll -/

/-- The block makes a status read of the poll of `r` next (the rows of R150, and of R201 once Resume is delivered). -/
structure State.Polls (s : State) (r : Request) : Prop where
  req : s.req = some r
  destructive : r.destructive = true
  phase : s.phase = .commandIssued ∨ (s.phase = .pollingBusy ∧ s.variant = .blocking) ∨
    (s.phase = .suspended ∧ s.variant = .suspending)

theorem State.Polls.selected (h : s.Polls r) : s.selected = some .txReadStatusRegister1 := by
  have hf := statusFrame_of_destructive h.destructive
  rcases h.phase with hp | ⟨hp, hv⟩ | ⟨hp, hv⟩ <;> simp [State.selected, h.req, hp, hf] <;> exact hv

theorem State.Polls.phase_ne {p : Phase} (h : s.Polls r) (hc : p ≠ .commandIssued) (hb : p ≠ .pollingBusy)
    (hs : p ≠ .suspended) : s.phase ≠ p := by
  rintro rfl
  rcases h.phase with hp | ⟨hp, -⟩ | ⟨hp, -⟩
  · exact hc hp
  · exact hb hp
  · exact hs hp

/-- R161: a status read of the poll is counted and branches on its answer. -/
theorem State.Polls.exec_ok (h : s.Polls r) (hx : s.xferAnswer = .ok received) (hl : received.length = 2) :
    exec .txReadStatusRegister1 s =
      .next (pollBranch received (s.countRead.afterXfer [0x05, s.params.fillByte])) := by
  have hw : s.phase ≠ .writeEnableSent := h.phase_ne nofun nofun nofun
  rw [exec_frame_ok (h.phase_ne nofun nofun nofun) h.selected (txBytes_txReadStatusRegister1 _) hx hl, txOk_poll hw,
    State.counted_poll hw]

theorem State.Polls.exec_err {e : TransportErr} (h : s.Polls r) (hx : s.xferAnswer = .err e) :
    exec .txReadStatusRegister1 s =
      .next (State.failTransport true e (s.countRead.afterXfer [0x05, s.params.fillByte])) := by
  have hw : s.phase ≠ .writeEnableSent := h.phase_ne nofun nofun nofun
  rw [exec_frame_err (h.phase_ne nofun nofun nofun) h.selected (txBytes_txReadStatusRegister1 _) hx, txErr_poll hw,
    State.counted_poll hw]

theorem State.Polls.exec_busy {b0 sr : Byte} (h : s.Polls r) (hx : s.xferAnswer = .ok [b0, sr])
    (hb : sr.getLsbD 0 = true) :
    exec .txReadStatusRegister1 s = .next { s.afterXfer [0x05, s.params.fillByte] with
      phase := .pollingBusy, statusReads := s.statusReads + 1 } := by
  rw [h.exec_ok hx rfl, pollBranch_busy (received := [b0, sr]) hb]
  rfl

/-- R161: BUSY 0 ends the poll of a program that is to be verified in Verifying. -/
theorem State.Polls.exec_verify {b0 sr : Byte} (h : s.Polls r) (hx : s.xferAnswer = .ok [b0, sr])
    (hb : sr.getLsbD 0 = false) (hv : s.verifies = true) :
    exec .txReadStatusRegister1 s = .next { s.afterXfer [0x05, s.params.fillByte] with
      phase := .verifying, statusReads := s.statusReads + 1 } := by
  have hb' : ¬ busy (sr1 [b0, sr]) = true := ne_true_of_eq_false hb
  have hv' : (s.countRead.afterXfer [0x05, s.params.fillByte]).verifies = true := hv
  rw [h.exec_ok hx rfl, pollBranch, if_neg hb', if_pos hv']
  rfl

/-- R161: BUSY 0 ends every other poll in Complete. -/
theorem State.Polls.exec_finish {b0 sr : Byte} (h : s.Polls r) (hx : s.xferAnswer = .ok [b0, sr])
    (hb : sr.getLsbD 0 = false) (hv : s.verifies = false) :
    exec .txReadStatusRegister1 s = .next { s.afterXfer [0x05, s.params.fillByte] with
      phase := .complete, result := some .nothing, statusReads := s.statusReads + 1 } := by
  have hb' : ¬ busy (sr1 [b0, sr]) = true := ne_true_of_eq_false hb
  have hv' : ¬ (s.countRead.afterXfer [0x05, s.params.fillByte]).verifies = true := ne_true_of_eq_false hv
  rw [h.exec_ok hx rfl, pollBranch, if_neg hb', if_neg hv']
  rfl

theorem State.verifies_program {a : Addr} {d : List Byte} (hr : s.req = some (.program a d)) :
    s.verifies = s.verifyReadback := by
  rw [State.verifies, hr]

/-- An erase is not verified, and nothing is with readback verification off. -/
theorem State.verifies_eq_false (hr : s.req = some r) (h : (∃ g a, r = .erase g a) ∨ s.verifyReadback = false) :
    s.verifies = false := by
  cases hv : s.verifies with
  | false => rfl
  | true =>
    obtain ⟨hb, a, d, hq⟩ := State.verifies_eq_true hv
    rcases h with ⟨g, a', rfl⟩ | h
    · cases hr.symm.trans hq
    · cases hb.symm.trans h

/-- Settles O27: a status read of the poll, with each answer. -/
theorem pollReadBranchesOnBusy : Obligations.PollReadBranchesOnBusy := by
  intro s r hr hd hp
  have h : s.Polls r := ⟨hr, hd, hp⟩
  refine ⟨fun hn hport => ?_, fun b0 sr hx => ?_, fun e hx => ?_⟩
  · exact step_selected h.selected (.inr hport) hn
  · refine ⟨h.exec_busy hx, fun hb => ⟨?_, fun hno => ?_⟩⟩
    · rintro ⟨a, d, rfl⟩ hback
      exact h.exec_verify hx hb ((State.verifies_program hr).trans hback)
    · exact h.exec_finish hx hb (State.verifies_eq_false hr hno)
  · rw [h.exec_err hx, State.failTransport, Bool.or_true]
    rfl

/-! ### The readback -/

theorem State.selected_readback {a : Addr} {d : List Byte} (hp : s.phase = .verifying) (hr : s.req = some (.program a d)) :
    s.selected = some (.txReadData a d.length) := by
  rw [State.selected, hp, hr]

/-- R163: the readback is one ReadData transaction. -/
theorem exec_readback {a : Addr} {d : List Byte} (hp : s.phase = .verifying) (hr : s.req = some (.program a d))
    (ha : a.toNat < addrLimit) (hx : s.xferAnswer = .ok received) (hl : received.length = 4 + d.length) :
    exec (.txReadData a d.length) s = .next (readDone d.length received
      (s.afterXfer (0x03 :: addrBytes a ++ fill s.params d.length))) := by
  rw [exec_frame_ok (by simp [hp]) (State.selected_readback hp hr) (frame_addr rfl ha) hx
    (hl.trans (length_readFrame _ a _).symm), State.counted_other (i := .txReadData a d.length) nofun]
  rfl

/-- R163: the comparison of the readback. -/
theorem readDone_verifying {a : Addr} {d : List Byte} {n : Nat} (hp : s.phase = .verifying)
    (hr : s.req = some (.program a d)) :
    readDone n received s = if readBytes received d.length = d then s.finish .nothing else s.raise .readbackFail := by
  rw [readDone, hp, hr]

/-- Settles O28: the readback with equal and with different data. -/
theorem readbackIsCompared : Obligations.ReadbackIsCompared := by
  intro s a d received hp hr ha hx hl
  refine ⟨fun hport => ?_, fun he => ?_, fun he => ?_⟩
  · exact step_selected (State.selected_readback hp hr) (.inr hport) (by simp [hp])
  · rw [exec_readback hp hr ha hx hl, readDone_verifying (s := s.afterXfer _) hp hr, readBytes, slice, if_pos he]
    rfl
  · rw [exec_readback hp hr ha hx hl, readDone_verifying (s := s.afterXfer _) hp hr, readBytes, slice, if_neg he]
    rfl

/-! ### Transport errors -/

/-- Settles O29: a well-formed frame has bytes, and the transaction's Err is the failure; then the respond step. -/
theorem transportErrorAborts : Obligations.TransportErrorAborts := by
  refine ⟨fun s i e hf hs hw hx => ?_, fun s e hp hport => ?_⟩
  · obtain ⟨out, hb, he⟩ := txBytes_wf (p := s.params) (State.selected_isFrame hs) hw
    exact ⟨out, he, (exec_frame_err hf hs hb hx).trans (congrArg _ (txErr_move hs))⟩
  · rw [step_respond (.inr ⟨_, hp⟩) hport, State.deliver, State.response_failed hp]
    rfl

end Sys2Proof.Machine
end

section
/-!
PROOFS. The events of a step: at most one is an external action (O44), and one that carries a destructive opcode is sent from Confirmed,
which a status read with the latch set precedes, and the WriteEnable transaction that (O45).
-/

namespace Sys2Proof.Machine

variable {s t u : State} {i : Instr} {r : Request} {out received : List Byte}

/-! ### The events of a step -/

/-- What a step may append to the trace (R34): nothing, one event, or a Resume with the status read that follows it. -/
inductive StepEvents (s : State) : List Event → Prop
  | silent : StepEvents s []
  | pin (p : Pin) (l : Level) (x : PinResult) : StepEvents s [.pin p l x]
  | yielded : StepEvents s [.yielded]
  | cancelled : StepEvents s [.cancelled]
  | respond (x : Response) : StepEvents s [.respond x]
  | tx (u : State) (i : Instr) (out : List Byte) (x : XferResult) (hb : FrameBase s u) (hs : u.selected = some i)
      (ho : txBytes u.params i = .ok out) : StepEvents s [.tx out x]
  | resumed (u : State) (i : Instr) (out : List Byte) (x : XferResult) (hb : FrameBase s u) (hs : u.selected = some i)
      (ho : txBytes u.params i = .ok out) : StepEvents s [.resumed, .tx out x]

/-- The step from `s` to `t` appends one of the lists of `StepEvents`. -/
def AppendsStepEvents (s t : State) : Prop := ∃ events, t.trace = s.trace ++ events ∧ StepEvents s events

theorem AppendsStepEvents.of_eq (h : t.trace = s.trace) : AppendsStepEvents s t :=
  ⟨[], by rw [h, List.append_nil], .silent⟩

/-- A transaction is recorded after the Resume that let it be made, if there was one. -/
theorem AppendsStepEvents.of_tx {x : XferResult} (hb : FrameBase s u) (hs : u.selected = some i)
    (ho : txBytes u.params i = .ok out) (h : t.trace = u.trace ++ [.tx out x]) : AppendsStepEvents s t := by
  rcases hb.trace_eq with hu | hu
  · exact ⟨_, by rw [h, hu], .tx u i out x hb hs ho⟩
  · exact ⟨_, by rw [h, hu, List.append_assoc]; rfl, .resumed u i out x hb hs ho⟩

/-- R151, R201: a frame the encoder refuses leaves no event, and none is resumed for it: a status read is always encodable. -/
theorem FrameBase.trace_eq_of_unencodable {f : ContractFault} (hb : FrameBase s u) (hs : u.selected = some i)
    (ho : txBytes u.params i = .error f) : u.trace = s.trace := by
  cases hb with
  | transmit _ => rfl
  | accept _ _ _ _ => simp
  | resume hp _ =>
    cases State.selected_suspended hs hp
    cases ho

theorem StepMove.events (h : StepMove s t) : AppendsStepEvents s t := by
  cases h with
  | wait _ => exact .of_eq rfl
  | refuse _ _ _ => exact .of_eq (by simp)
  | concurrent _ _ => exact .of_eq (by simp)
  | answer _ _ _ _ _ => exact .of_eq (by simp)
  | fail _ _ _ _ _ => exact .of_eq (by simp)
  | reject _ _ _ _ _ => exact .of_eq (by simp)
  | pin r p l _ _ _ _ => exact ⟨_, by rw [State.drivePin_trace, State.latch_trace, State.consume_trace], .pin p l _⟩
  | yield _ _ _ _ _ => exact ⟨_, rfl, .yielded⟩
  | cancel _ _ _ _ _ => exact ⟨_, rfl, .cancelled⟩
  | respond _ => exact ⟨_, rfl, .respond s.response⟩
  | unencodable u i f hb hs ho => exact .of_eq (hb.trace_eq_of_unencodable hs ho)
  | badLength u i out received hb hs ho _ _ => exact .of_tx hb hs ho rfl
  | err u i out e hb hs ho _ => exact .of_tx hb hs ho rfl
  | ok u t i out received hb hs ho _ _ hm => exact .of_tx hb hs ho hm.trace_eq

/-- R60, R151: at most one event of a step is an external action. -/
theorem StepEvents.actions_le_one {events : List Event} (h : StepEvents s events) :
    (events.filter Event.isAction).length ≤ 1 := by
  cases h with
  | silent | yielded | cancelled => exact Nat.zero_le 1
  | pin | respond | tx | resumed => exact Nat.le_refl 1

/-- Settles O44: the events of any step, and the actions among them. -/
theorem aStepPerformsAtMostOneAction : Obligations.AStepPerformsAtMostOneAction := by
  intro s t h
  obtain ⟨events, ht, he⟩ := (step_move h).events
  exact ⟨events, ht, he.actions_le_one⟩

/-! ### Destructive opcodes -/

/-- Of the frames the tables select, only those of Confirmed carry a destructive opcode (R159). -/
theorem State.confirmed_of_destructive {x : XferResult} (hs : s.selected = some i) (ho : txBytes s.params i = .ok out)
    (hd : (Event.tx out x).isDestructiveTx = true) : s.phase = .confirmed := by
  rcases State.selected_cases hs with ⟨r, hp, hr, hf⟩ | ⟨_, _, rfl⟩ | ⟨_, hp, _⟩ | ⟨_, _, _, rfl, _⟩ | ⟨a, d, _, _, rfl⟩
  case inr.inr.inl => exact hp
  · cases r with
    | read a n =>
      cases hf
      obtain ⟨-, rfl⟩ := frame_ok rfl ho
      cases hd
    | program | erase | uniqueId | powerDown | releasePowerDown | reset => cases hf; cases ho; cases hd
    | capacity | model | setHold | setWp => cases hf
  · cases ho
    cases hd
  · cases ho
    cases hd
  · obtain ⟨-, rfl⟩ := frame_ok rfl ho
    cases hd

/-- R158, R278: a step sends a destructive opcode only from Confirmed. -/
theorem StepEvents.confirmed_of_destructive {events : List Event} {e : Event} (h : StepEvents s events) (he : e ∈ events)
    (hd : e.isDestructiveTx = true) : s.phase = .confirmed := by
  cases h with
  | tx u i out x hb hs ho =>
    cases List.mem_singleton.mp he
    exact hb.phase_eq ▸ State.confirmed_of_destructive hs ho hd
  | resumed u i out x hb hs ho =>
    rcases List.mem_pair.mp he with rfl | rfl
    · cases hd
    · exact hb.phase_eq ▸ State.confirmed_of_destructive hs ho hd
  | silent => cases he
  | _ =>
    cases List.mem_singleton.mp he
    cases hd

/-! ### How Confirmed and WriteEnableSent are entered -/

theorem State.drivePin_phase_ne {p : Pin} {l : Level} {ph : Phase} (hc : ph ≠ .complete) (hf : ∀ e, ph ≠ .failed e) :
    (s.drivePin p l).phase ≠ ph := by
  rcases s.drivePin_cases p l with h | ⟨e, h⟩ <;> rw [h]
  · exact hc.symm
  · exact (hf _).symm

/-- Of the moves of a step only an Ok enters a phase of the write-enable handshake. -/
theorem StepMove.entersHandshake (h : StepMove s t) (hp : t.phase = .confirmed ∨ t.phase = .writeEnableSent) :
    ∃ u out received, FrameBase s u ∧ u.xferAnswer = .ok received ∧ received.length = out.length ∧
      OkMove u out received (u.afterXfer out) t := by
  cases h with
  | ok u t i out received hb _ _ hx hl hm => exact ⟨u, out, received, hb, hx, hl, hm⟩
  | wait hw => rcases hw with ⟨hw, -⟩ | ⟨hw, -⟩ <;> simp [hw] at hp
  | refuse _ hw _ => simp [hw] at hp
  | pin _ _ _ _ _ _ _ => exact absurd hp (not_or.mpr ⟨State.drivePin_phase_ne nofun nofun, State.drivePin_phase_ne nofun nofun⟩)
  | _ => simp at hp

theorem confirmLatch_phase_ne {p : Phase} (hc : p ≠ .confirmed) (hf : ∀ e, p ≠ .failed e) :
    (confirmLatch received s).phase ≠ p := by
  unfold confirmLatch
  split
  · exact hc.symm
  · exact (hf _).symm

theorem pollBranch_phase_ne {p : Phase} (hb : p ≠ .pollingBusy) (hv : p ≠ .verifying) (hc : p ≠ .complete) :
    (pollBranch received s).phase ≠ p := by
  unfold pollBranch
  split
  · exact hb.symm
  · split
    · exact hv.symm
    · exact hc.symm

/-- R157: Confirmed is entered by a status read that showed the latch set. -/
theorem OkMove.confirmed (h : OkMove u out received (u.afterXfer out) t) (hp : t.phase = .confirmed) :
    u.phase = .writeEnableSent ∧ out = [0x05, u.params.fillByte] ∧ wel u.params (sr1 received) = true := by
  cases h with
  | confirm r hq _ _ ho =>
    refine ⟨hq, ho, ?_⟩
    cases hw : wel u.params (sr1 received) with
    | true => rfl
    | false =>
      rw [confirmLatch_clear (v := u.afterXfer out) hw] at hp
      cases hp
  | poll _ _ _ _ _ => exact absurd hp (pollBranch_phase_ne nofun nofun nofun)
  | _ => cases hp

/-- R156: WriteEnableSent is entered by the WriteEnable transaction. -/
theorem OkMove.writeEnableSent (h : OkMove u out received (u.afterXfer out) t) (hp : t.phase = .writeEnableSent) :
    u.phase = .idle ∧ out = [0x06] := by
  cases h with
  | writeEnable _ hq _ _ ho => exact ⟨hq, ho⟩
  | confirm _ _ _ _ _ => exact absurd hp (confirmLatch_phase_ne nofun nofun)
  | poll _ _ _ _ _ => exact absurd hp (pollBranch_phase_ne nofun nofun nofun)
  | _ => cases hp

/-- Outside Suspended nothing is recorded before a step's transaction. -/
theorem FrameBase.trace_eq_self (h : FrameBase s u) (hp : s.phase ≠ .suspended) : u.trace = s.trace := by
  cases h with
  | transmit _ => rfl
  | accept _ _ _ _ => simp
  | resume hq _ => exact absurd hq hp

/-- Settles O45: the events of a step, and the two Oks that enter the phases before the command. -/
theorem destructiveOpcodesNeedTheLatch : Obligations.DestructiveOpcodesNeedTheLatch := by
  intro s t h
  have hmove := step_move h
  refine ⟨fun events e ht he hd => ?_, fun hp => ?_, fun hp => ?_⟩
  · obtain ⟨events', ht', hev⟩ := hmove.events
    cases List.append_cancel_left (ht.symm.trans ht')
    exact hev.confirmed_of_destructive he hd
  · obtain ⟨u, out, received, hb, hx, hl, hm⟩ := hmove.entersHandshake (.inl hp)
    obtain ⟨hu, rfl, hw⟩ := hm.confirmed hp
    rw [hb.phase_eq] at hu
    rw [hb.params_eq] at hw hm
    obtain ⟨b0, sr, rfl⟩ := List.length_eq_two.mp hl
    refine ⟨hu, b0, sr, hw, ?_⟩
    rw [hm.trace_eq, State.afterXfer_trace, hx, hb.trace_eq_self (by simp [hu])]
  · obtain ⟨u, out, received, hb, hx, hl, hm⟩ := hmove.entersHandshake (.inr hp)
    obtain ⟨hu, rfl⟩ := hm.writeEnableSent hp
    rw [hb.phase_eq] at hu
    refine ⟨hu, received, ?_⟩
    rw [hm.trace_eq, State.afterXfer_trace, hx, hb.trace_eq_self (by simp [hu])]

end Sys2Proof.Machine
end

section
/-!
PROOFS. The BLOCKING poll: after `k` status reads that show BUSY the block is still in it (O54), and the first that shows BUSY 0 ends it
(O52). The states on the way are written out (`State.polled`, `State.pollEnded`), so that a run is an equation.
-/

namespace Sys2Proof.Machine

variable {s : State} {r : Request} {b c : Byte × Byte} {bs : List (Byte × Byte)} {rest : List XferResult}

/-- What one transaction leaves, its answer written out. -/
theorem State.afterXfer_of_cons {x : XferResult} (out : List Byte) (h : s.env.xferIn = x :: rest) :
    s.afterXfer out = { s with
      trace := s.trace ++ [.tx out x]
      env := { s.env with xferIn := rest, xferCount := s.env.xferCount + 1 } } := by
  rw [State.afterXfer, State.xferAnswer_cons h, h, List.tail_cons]

/-- A BLOCKING block polls for `r`, and its host presents nothing. -/
structure State.BlockingPoll (s : State) (r : Request) : Prop where
  variant : s.variant = .blocking
  phase : s.phase = .commandIssued ∨ s.phase = .pollingBusy
  req : s.req = some r
  destructive : r.destructive = true
  port : s.env.port = none

theorem State.BlockingPoll.polls (h : s.BlockingPoll r) : s.Polls r where
  req := h.req
  destructive := h.destructive
  phase := h.phase.imp_right fun hp => .inl ⟨hp, h.variant⟩

/-- R161: a step of the poll is a status read. -/
theorem State.BlockingPoll.step_eq (h : s.BlockingPoll r) : step s = exec .txReadStatusRegister1 s :=
  step_selected h.polls.selected (.inr h.port) (by rcases h.phase with hp | hp <;> simp [hp])

/-! ### The status reads that show BUSY -/

/-- The block after the status reads `bs`, each of which showed BUSY, with the answers `rest` to come. -/
def State.polled (bs : List (Byte × Byte)) (rest : List XferResult) (s : State) : State :=
  { s with
    phase := if bs.isEmpty then s.phase else .pollingBusy
    statusReads := s.statusReads + bs.length
    trace := s.trace ++ bs.map (statusEvent s.params)
    env := { s.env with xferIn := rest, xferCount := s.env.xferCount + bs.length } }

theorem State.polled_nil (s : State) : s.polled [] s.env.xferIn = s := by
  simp [State.polled]

theorem State.polled_cons (b : Byte × Byte) (bs : List (Byte × Byte)) (rest rest' : List XferResult) (s : State) :
    (s.polled [b] rest').polled bs rest = s.polled (b :: bs) rest := by
  simp [State.polled, Nat.add_assoc, Nat.add_comm 1]

theorem State.BlockingPoll.polled (h : s.BlockingPoll r) (bs : List (Byte × Byte)) (rest : List XferResult) :
    (s.polled bs rest).BlockingPoll r where
  variant := h.variant
  phase := by
    cases bs with
    | nil => exact h.phase
    | cons _ _ => exact .inr rfl
  req := h.req
  destructive := h.destructive
  port := h.port

/-- R161: BUSY 1 goes on with the poll. -/
theorem State.BlockingPoll.step_busy (h : s.BlockingPoll r) (hx : s.env.xferIn = statusAnswer b :: rest)
    (hb : b.2.getLsbD 0 = true) : step s = .next (s.polled [b] rest) := by
  rw [h.step_eq, h.polls.exec_busy (State.xferAnswer_cons hx) hb, State.afterXfer_of_cons _ hx]
  rfl

/-- R164: as long as the chip shows BUSY the block is in the poll. -/
theorem State.BlockingPoll.run_busy (h : s.BlockingPoll r) (hx : s.env.xferIn = bs.map statusAnswer ++ rest)
    (hb : ∀ b ∈ bs, b.2.getLsbD 0 = true) : run bs.length s = .next (s.polled bs rest) := by
  induction bs generalizing s with
  | nil =>
    cases hx
    rw [State.polled_nil]
    rfl
  | cons b bs ih =>
    obtain ⟨hb₁, hbs⟩ := List.forall_mem_cons.mp hb
    rw [List.length_cons, run_succ (h.step_busy (rest := bs.map statusAnswer ++ rest) hx hb₁), ih (h.polled [b] _) rfl hbs, State.polled_cons]

/-! ### The status read that ends the poll -/

/-- The block after a poll with the status reads `bs` and `c`, of which `c` alone showed BUSY 0. -/
def State.pollEnded (bs : List (Byte × Byte)) (c : Byte × Byte) (rest : List XferResult) (s : State) : State :=
  { s with
    phase := if s.verifies then .verifying else .complete
    result := if s.verifies then s.result else some .nothing
    statusReads := s.statusReads + (bs.length + 1)
    trace := s.trace ++ (bs.map (statusEvent s.params) ++ [statusEvent s.params c])
    env := { s.env with xferIn := rest, xferCount := s.env.xferCount + (bs.length + 1) } }

theorem State.pollEnded_polled (s : State) (bs : List (Byte × Byte)) (c : Byte × Byte) (rest rest' : List XferResult) :
    (s.polled bs rest').pollEnded [] c rest = s.pollEnded bs c rest := by
  have hv : (s.polled bs rest').verifies = s.verifies := rfl
  rw [State.pollEnded, hv]
  simp [State.pollEnded, State.polled, Nat.add_assoc]

/-- R161: BUSY 0 ends the poll. -/
theorem State.BlockingPoll.step_ready (h : s.BlockingPoll r) (hx : s.env.xferIn = statusAnswer c :: rest)
    (hc : c.2.getLsbD 0 = false) : step s = .next (s.pollEnded [] c rest) := by
  have ha : s.xferAnswer = .ok [c.1, c.2] := State.xferAnswer_cons hx
  cases hv : s.verifies with
  | true =>
    rw [h.step_eq, h.polls.exec_verify ha hc hv, State.afterXfer_of_cons _ hx, State.pollEnded, hv]
    rfl
  | false =>
    rw [h.step_eq, h.polls.exec_finish ha hc hv, State.afterXfer_of_cons _ hx, State.pollEnded, hv]
    rfl

/-- R162: a poll whose first `k` reads show BUSY and whose next does not makes `k + 1` reads. -/
theorem State.BlockingPoll.run_ready (h : s.BlockingPoll r)
    (hx : s.env.xferIn = bs.map statusAnswer ++ statusAnswer c :: rest) (hb : ∀ b ∈ bs, b.2.getLsbD 0 = true)
    (hc : c.2.getLsbD 0 = false) : run (bs.length + 1) s = .next (s.pollEnded bs c rest) := by
  rw [run_add (h.run_busy hx hb), run_succ ((h.polled bs _).step_ready rfl hc), State.pollEnded_polled]
  rfl

/-! ### The obligations -/

/-- Settles O52: the poll after each of its busy reads, and after the read that ends it. -/
theorem pollReadsOnceMoreThanBusy : Obligations.PollReadsOnceMoreThanBusy := by
  intro s r bs c rest hv hp hr hd hn hport hb hc hx
  have h : s.BlockingPoll r := ⟨hv, .inl hp, hr, hd, hport⟩
  refine ⟨fun j hj => ?_, s.pollEnded bs c rest, h.run_ready hx hb hc, ?_, ?_, ?_, rfl, rfl, rfl⟩
  · have hlen : (bs.take j).length = j := List.length_take_of_le hj
    have hsplit : s.env.xferIn =
        (bs.take j).map statusAnswer ++ ((bs.drop j).map statusAnswer ++ statusAnswer c :: rest) := by
      rw [hx, ← List.append_assoc, ← List.map_append, List.take_append_drop]
    have hrun := h.run_busy hsplit fun b hm => hb b (List.mem_of_mem_take hm)
    rw [hlen] at hrun
    refine ⟨_, hrun, ?_, (h.polled _ _).phase⟩
    simp only [State.polled, hn, hlen, Nat.zero_add]
  · simp only [State.pollEnded, hn, Nat.zero_add]
  · rintro ⟨a, d, rfl⟩ hback
    exact if_pos ((State.verifies_program hr).trans hback)
  · intro hno
    exact if_neg (ne_true_of_eq_false (State.verifies_eq_false hr hno))

/-- Answers that all show BUSY are those of a list of status reads. -/
theorem exists_busyReads {xs : List XferResult} (h : ∀ x ∈ xs, ∃ b, x = statusAnswer b ∧ b.2.getLsbD 0 = true) :
    ∃ bs : List (Byte × Byte), xs = bs.map statusAnswer ∧ ∀ b ∈ bs, b.2.getLsbD 0 = true := by
  induction xs with
  | nil => exact ⟨[], rfl, nofun⟩
  | cons x xs ih =>
    obtain ⟨⟨b, rfl, hb⟩, hxs⟩ := List.forall_mem_cons.mp h
    obtain ⟨bs, rfl, hbs⟩ := ih hxs
    exact ⟨b :: bs, rfl, List.forall_mem_cons.mpr ⟨hb, hbs⟩⟩

/-- Settles O54: the first `n + 1` answers of the script are `n + 1` busy reads. -/
theorem busyChipHangsThePoll : Obligations.BusyChipHangsThePoll := by
  intro n s r hv hp hr hd hport hn hx
  have h : s.BlockingPoll r := ⟨hv, hp, hr, hd, hport⟩
  obtain ⟨bs, hbs, hb⟩ := exists_busyReads hx
  have hlen : (bs.take (n + 1)).length = n + 1 := by
    rw [hbs, List.length_map] at hn
    exact List.length_take_of_le hn
  have hsplit : s.env.xferIn = (bs.take (n + 1)).map statusAnswer ++ (bs.drop (n + 1)).map statusAnswer := by
    rw [hbs, ← List.map_append, List.take_append_drop]
  have hrun := h.run_busy hsplit fun b hm => hb b (List.mem_of_mem_take hm)
  rw [hlen] at hrun
  refine ⟨_, hrun, if_neg ?_, hr, ?_⟩
  · rw [List.isEmpty_iff_length_eq_zero, hlen]
    exact Nat.succ_ne_zero n
  · simp only [State.polled, hlen, Nat.add_assoc]

end Sys2Proof.Machine
end

section
/-!
PROOFS. A whole request in the BLOCKING variant: the write-enable handshake and the command (`run_handshake`), the poll, the readback
where there is one, and the response: a program (O55) and an erase (O56).
-/

namespace Sys2Proof.Machine

variable {s : State} {i f : Instr} {r : Request} {x : HostInput} {q : List HostInput} {b0 : Byte} {c e : Byte × Byte}
  {out command readback : List Byte} {busyReads : List (Byte × Byte)} {rest : List XferResult} {a : Addr} {d : List Byte}

/-! ### The handshake and the command, a step each -/

/-- R156: the accept step of a destructive request from the serial host's queue. -/
theorem step_writeEnable (hp : s.phase = .idle) (hr : s.req = none) (hport : s.env.port = none)
    (hq : s.env.hostQueue = x :: q) (hx : decodeInput s.variant x = .ok i) (hi : i.request? = some r)
    (hd : r.destructive = true) (hv : requestVerdict s.geom s.params r = .pass)
    (ha : s.env.xferIn = .ok [b0] :: rest) :
    step s = .next { s with
      phase := .writeEnableSent, req := some r, suspensions := 0
      trace := s.trace ++ [.tx [0x06] (.ok [b0])]
      env := { s.env with hostQueue := q, xferIn := rest, xferCount := s.env.xferCount + 1 } } := by
  rw [step_accept hp hr (State.presented_queue hport hq) hx, State.consume_queue hport hq,
    exec_request_ok (s := { s with env := { s.env with hostQueue := q } }) hi hp hv (firstFrame_of_destructive hd)
      (txBytes_txWriteEnable _) (State.xferAnswer_cons ha) rfl,
    State.afterXfer_of_cons _ (s := State.latch r { s with env := { s.env with hostQueue := q } }) ha]
  rfl

/-- R157: the confirmation of a set latch. -/
theorem step_confirm (hp : s.phase = .writeEnableSent) (hr : s.req = some r) (hport : s.env.port = none)
    (hd : r.destructive = true) (hw : c.2.getLsbD s.params.welBit = true) (ha : s.env.xferIn = statusAnswer c :: rest) :
    step s = .next { s with
      phase := .confirmed
      trace := s.trace ++ [statusEvent s.params c]
      env := { s.env with xferIn := rest, xferCount := s.env.xferCount + 1 } } := by
  rw [step_selected (State.selected_confirmation hp hr hd) (.inr hport) (by simp [hp]),
    exec_confirmation (received := [c.1, c.2]) hp hr hd (State.xferAnswer_cons ha) rfl,
    confirmLatch_set (received := [c.1, c.2]) (v := s.afterXfer _) hw, State.afterXfer_of_cons _ ha]
  rfl

/-- R158: the command transaction. -/
theorem step_command (hp : s.phase = .confirmed) (hr : s.req = some r) (hport : s.env.port = none)
    (hc : commandFrame r = some f) (hb : txBytes s.params f = .ok out) (hl : command.length = out.length)
    (ha : s.env.xferIn = .ok command :: rest) :
    step s = .next { s with
      phase := .commandIssued, statusReads := 0
      trace := s.trace ++ [.tx out (.ok command)]
      env := { s.env with xferIn := rest, xferCount := s.env.xferCount + 1 } } := by
  rw [step_selected ((State.selected_command hp hr).trans hc) (.inr hport) (by simp [hp]),
    exec_command hp hr hc hb (State.xferAnswer_cons ha) hl, State.afterXfer_of_cons _ ha]
  rfl

/-- The block after the command transaction of `r`: the host's queue and the answers to come are given, and the events so far. -/
def State.issued (r : Request) (q : List HostInput) (events : List Event) (rest : List XferResult) (s : State) : State :=
  { s with
    phase := .commandIssued, req := some r, suspensions := 0, statusReads := 0
    trace := s.trace ++ events
    env := { s.env with hostQueue := q, xferIn := rest, xferCount := s.env.xferCount + 3 } }

/-- R156 to R158: from acceptance to CommandIssued in three steps. -/
theorem run_handshake (hp : s.phase = .idle) (hr : s.req = none) (hport : s.env.port = none)
    (hq : s.env.hostQueue = x :: q) (hx : decodeInput s.variant x = .ok i) (hi : i.request? = some r)
    (hd : r.destructive = true) (hv : requestVerdict s.geom s.params r = .pass)
    (hw : c.2.getLsbD s.params.welBit = true) (hc : commandFrame r = some f) (hb : txBytes s.params f = .ok out)
    (hl : command.length = out.length) (ha : s.env.xferIn = .ok [b0] :: statusAnswer c :: .ok command :: rest) :
    run 3 s = .next (s.issued r q (handshakeEvents s.params b0 c out command) rest) := by
  refine (run_succ (step_writeEnable hp hr hport hq hx hi hd hv ha)).trans ?_
  refine Eq.trans (run_succ (step_confirm rfl rfl hport hd hw rfl)) ?_
  refine Eq.trans (run_succ (step_command rfl rfl hport hc hb hl rfl)) ?_
  simp [run, State.issued, handshakeEvents]

theorem State.issued_blockingPoll {events : List Event} (hv : s.variant = .blocking) (hport : s.env.port = none)
    (hd : r.destructive = true) : (s.issued r q events rest).BlockingPoll r where
  variant := hv
  phase := .inl rfl
  req := rfl
  destructive := hd
  port := hport

/-! ### The end of a request -/

/-- R163: a readback equal to the data completes the program. -/
theorem step_readback (hp : s.phase = .verifying) (hr : s.req = some (.program a d)) (hport : s.env.port = none)
    (hf : a.toNat < addrLimit) (hl : readback.length = 4 + d.length) (he : readBytes readback d.length = d)
    (ha : s.env.xferIn = .ok readback :: rest) :
    step s = .next { s with
      phase := .complete, result := some .nothing
      trace := s.trace ++ [readbackEvent s.params a d.length readback]
      env := { s.env with xferIn := rest, xferCount := s.env.xferCount + 1 } } := by
  rw [step_selected (State.selected_readback hp hr) (.inr hport) (by simp [hp]),
    exec_readback hp hr hf (State.xferAnswer_cons ha) hl, readDone_verifying (s := s.afterXfer _) hp hr, if_pos he,
    State.afterXfer_of_cons _ ha]
  rfl

theorem step_respond_complete {p : Payload} (hp : s.phase = .complete) (hr : s.result = some p) (hport : s.env.port = none) :
    step s = .next { s with trace := s.trace ++ [.respond (.ok p)], req := none, result := none, phase := .idle } := by
  rw [step_respond (.inl hp) hport, State.deliver, State.response_complete hp hr]

/-- The block after the last steps of a request and its response: `reads` status reads, `n` transactions and `events` since `s`. -/
def State.served (reads n : Nat) (events : List Event) (rest : List XferResult) (s : State) : State :=
  { s with
    phase := .idle, req := none, result := none, statusReads := s.statusReads + reads
    trace := s.trace ++ (events ++ [.respond (.ok .nothing)])
    env := { s.env with xferIn := rest, xferCount := s.env.xferCount + n } }

/-- A poll that ends in Complete, and the response. -/
theorem State.BlockingPoll.run_unverified (h : s.BlockingPoll r) (hver : s.verifies = false)
    (ha : s.env.xferIn = busyReads.map statusAnswer ++ statusAnswer e :: rest)
    (hb : ∀ b ∈ busyReads, b.2.getLsbD 0 = true) (he : e.2.getLsbD 0 = false) :
    run (busyReads.length + 1 + 1) s = .next (s.served (busyReads.length + 1) (busyReads.length + 1)
      (busyReads.map (statusEvent s.params) ++ [statusEvent s.params e]) rest) := by
  have hp : (s.pollEnded busyReads e rest).phase = .complete := by simp [State.pollEnded, hver]
  have hres : (s.pollEnded busyReads e rest).result = some .nothing := by simp [State.pollEnded, hver]
  rw [run_add (h.run_ready ha hb he), run_succ (step_respond_complete hp hres h.port)]
  simp [run, State.pollEnded, State.served]

/-- A poll that ends in Verifying, the readback that matches, and the response. -/
theorem State.BlockingPoll.run_verified (h : s.BlockingPoll (.program a d)) (hver : s.verifyReadback = true)
    (ha : s.env.xferIn = busyReads.map statusAnswer ++ statusAnswer e :: .ok readback :: rest)
    (hb : ∀ b ∈ busyReads, b.2.getLsbD 0 = true) (he : e.2.getLsbD 0 = false) (hf : a.toNat < addrLimit)
    (hl : readback.length = 4 + d.length) (hrb : readBytes readback d.length = d) :
    run (busyReads.length + 1 + 2) s = .next (s.served (busyReads.length + 1) (busyReads.length + 2)
      (busyReads.map (statusEvent s.params) ++ [statusEvent s.params e, readbackEvent s.params a d.length readback])
      rest) := by
  have hv : s.verifies = true := (State.verifies_program h.req).trans hver
  have hp : (s.pollEnded busyReads e (.ok readback :: rest)).phase = .verifying := by simp [State.pollEnded, hv]
  rw [run_add (h.run_ready ha hb he), run_succ (step_readback hp h.req h.port hf hl hrb rfl)]
  refine Eq.trans (run_succ (step_respond_complete rfl rfl h.port)) ?_
  simp [run, State.pollEnded, State.served, Nat.add_assoc]

/-! ### Addresses that passed the checks -/

theorem fits_of_checkFrameAddr (h : checkFrameAddr a = .pass) : a.toNat < addrLimit := by
  unfold checkFrameAddr at h
  split at h
  · cases h
  · exact Nat.not_le.mp ‹_›

/-- R172, P3: a program that passed its checks fits its frame. -/
theorem fits_of_program {g : Geometry} {p : Params} (h : requestVerdict g p (.program a d) = .pass) :
    a.toNat < addrLimit := by
  simp only [requestVerdict, checkProgram] at h
  split at h
  · cases h
  · split at h
    · cases h
    · exact fits_of_checkFrameAddr h

/-- R175, E3: an aligned erase that passed its checks fits its frame. -/
theorem fits_of_erase {g : Geometry} {p : Params} {gran : Granularity} {size : Nat}
    (h : requestVerdict g p (.erase gran a) = .pass) (hs : g.gsize gran = some size) : a.toNat < addrLimit := by
  simp only [requestVerdict, checkErase, hs] at h
  split at h
  · cases h
  · split at h
    · cases h
    · exact fits_of_checkFrameAddr h

/-! ### The obligations -/

theorem decodeRequest_program {v : Variant} {w : RequestWord} (h : w.code = 0x3) :
    decodeRequest v w = .ok (.program w.addr w.data) := by
  rw [decodeRequest, h]
  rfl

/-- Settles O55: the handshake, then the poll with or without the readback, then the response. -/
theorem successfulProgramTrace : Obligations.SuccessfulProgramTrace := by
  intro s w q b0 c e command readback busyReads rest steps verification hv hp hr hport hq hw hpass hwel hl hb he hend
  have hf : w.addr.toNat < addrLimit := fits_of_program hpass
  have handshake (tail : List XferResult) (ha : s.env.xferIn = .ok [b0] :: statusAnswer c :: .ok command :: tail) :
      run 3 s = .next (s.issued (.program w.addr w.data) q
        (handshakeEvents s.params b0 c (0x02 :: addrBytes w.addr ++ w.data) command) tail) :=
    run_handshake hp hr hport hq (decodeRequest_program hw) rfl rfl hpass hwel rfl (frame_addr rfl hf)
      (hl.trans (by simp; omega)) ha
  have poll (tail : List XferResult) : (s.issued (.program w.addr w.data) q
      (handshakeEvents s.params b0 c (0x02 :: addrBytes w.addr ++ w.data) command) tail).BlockingPoll
        (.program w.addr w.data) := State.issued_blockingPoll hv hport rfl
  rcases hend with ⟨hver, rfl, rfl, ha⟩ | ⟨hver, rfl, rfl, hlr, hrb, ha⟩
  · refine ⟨_, (run_add (handshake _ ha)).trans ((poll _).run_unverified
      ((State.verifies_program rfl).trans hver) rfl hb he), rfl, rfl, rfl, rfl, Nat.zero_add _, rfl, rfl, ?_⟩
    simp [State.served, State.issued]
  · refine ⟨_, (run_add (handshake _ ha)).trans ((poll _).run_verified hver rfl hb he hf hlr hrb),
      rfl, rfl, rfl, rfl, Nat.zero_add _, rfl, rfl, ?_⟩
    simp [State.served, State.issued]

/-- Settles O56: the handshake, then the poll, then the response, for each granularity. -/
theorem successfulEraseTrace : Obligations.SuccessfulEraseTrace := by
  intro s w g q b0 c e out command busyReads rest hv hp hr hport hq hw hpass hwel hl hb he ha
  obtain ⟨i, f, hd, hi, hc, ho⟩ : ∃ i f, decodeRequest s.variant w = .ok i ∧ i.request? = some (.erase g w.addr) ∧
      commandFrame (.erase g w.addr) = some f ∧ txBytes s.params f = .ok out := by
    rcases hw with ⟨hw, rfl, rfl⟩ | ⟨hw, rfl, rfl⟩ | ⟨hw, rfl, rfl⟩ | ⟨hw, rfl, rfl⟩
    · exact ⟨_, _, by rw [decodeRequest, hw]; rfl, rfl, rfl, frame_addr rfl (fits_of_erase hpass rfl)⟩
    · exact ⟨_, _, by rw [decodeRequest, hw]; rfl, rfl, rfl, frame_addr rfl (fits_of_erase hpass rfl)⟩
    · exact ⟨_, _, by rw [decodeRequest, hw]; rfl, rfl, rfl, frame_addr rfl (fits_of_erase hpass rfl)⟩
    · exact ⟨_, _, by rw [decodeRequest, hw]; rfl, rfl, rfl, rfl⟩
  have poll : (s.issued (.erase g w.addr) q (handshakeEvents s.params b0 c out command)
      (busyReads.map statusAnswer ++ statusAnswer e :: rest)).BlockingPoll (.erase g w.addr) :=
    State.issued_blockingPoll hv hport rfl
  refine ⟨_, (run_add (run_handshake hp hr hport hq hd hi rfl hpass hwel hc ho hl ha)).trans
    (poll.run_unverified rfl rfl hb he), rfl, rfl, rfl, rfl, Nat.zero_add _, rfl, rfl, ?_⟩
  simp [State.served, State.issued]

end Sys2Proof.Machine
end

section
/-!
PROOFS. The rows of the SUSPENDING variant (R201): the yield and the wait (O38), the Cancel (O39), which steps may yield, cancel or write
a pin (O46, O47), and the whole poll (O53). A status read of that poll is made from the state itself or from the state just resumed, so
the poll is followed from read to read (`State.pollResumed`).
-/

namespace Sys2Proof.Machine

variable {s t u : State} {r : Request} {b c : Byte × Byte} {bs : List (Byte × Byte)} {rest : List XferResult}
  {sched : List SchedInput} {events : List Event} {e : Event}

/-! ### The scheduler's steps -/

/-- R201: a SUSPENDING poll whose last read showed BUSY yields. -/
theorem step_yield (hv : s.variant = .suspending) (hp : s.phase = .pollingBusy) (hr : s.req = some r)
    (hd : r.destructive = true) (hport : s.env.port = none) : step s = .next s.yield := by
  have ha : s.action = .yield := by simp [State.action, State.pollingAction, hp, hport, hv, hr, hd]
  rw [step, ha]

/-- R208: a Suspended block with nothing delivered waits. -/
theorem step_suspended_wait {i : Instr} (hs : s.selected = some i) (hp : s.phase = .suspended) (hport : s.env.port = none)
    (hq : s.env.schedIn = []) : step s = .next s := by
  have ha : s.action = .wait := by simp [State.action, State.suspendedAction, hp, hport, hs, hq]
  rw [step, ha]

/-- R206: a Cancel is delivered. -/
theorem step_cancel {i : Instr} (hs : s.selected = some i) (hp : s.phase = .suspended) (hport : s.env.port = none)
    (hq : s.env.schedIn = .cancel :: sched) : step s = .next s.cancel := by
  have ha : s.action = .cancel := by simp [State.action, State.suspendedAction, hp, hport, hs, hq]
  rw [step, ha]

/-- R201: a Suspended block stands before a status read of its poll. -/
theorem State.polls_suspended (hv : s.variant = .suspending) (hp : s.phase = .suspended) (hr : s.req = some r)
    (hd : r.destructive = true) : s.Polls r where
  req := hr
  destructive := hd
  phase := .inr (.inr ⟨hp, hv⟩)

/-- Settles O38: the yield, and the wait. -/
theorem suspendingPollYields : Obligations.SuspendingPollYields := by
  intro s r hv hr hd hport
  refine ⟨fun hp => step_yield hv hp hr hd hport, fun hp hq => ?_⟩
  exact step_suspended_wait (State.polls_suspended hv hp hr hd).selected hp hport hq

/-! ### Which steps yield, cancel or write a pin -/

/-- Where the rows of R150 and R201 let a step record the event: a yield, a Cancel and a pin write have one row each; the others are
left open. -/
def Event.AllowedAt (s : State) : Event → Prop
  | .yielded => s.phase = .pollingBusy ∧ s.variant = .suspending ∧ ∃ r, s.req = some r ∧ r.destructive = true
  | .cancelled => s.phase = .suspended ∧ s.variant = .suspending
  | .pin _ _ _ => s.variant = .blocking
  | .tx _ _ => True
  | .resumed => True
  | .respond _ => True

/-- The step from `s` to `t` appends only events that are allowed at `s`. -/
def AppendsAllowed (s t : State) : Prop := ∃ events, t.trace = s.trace ++ events ∧ ∀ e ∈ events, e.AllowedAt s

theorem AppendsAllowed.of_eq (h : t.trace = s.trace) : AppendsAllowed s t := ⟨[], by rw [h, List.append_nil], nofun⟩

theorem AppendsAllowed.of_event (h : t.trace = s.trace ++ [e]) (he : e.AllowedAt s) : AppendsAllowed s t :=
  ⟨[e], h, List.forall_mem_singleton.mpr he⟩

/-- A transaction, and a Resume before it, are not restricted. -/
theorem AppendsAllowed.of_tx {out : List Byte} {x : XferResult} (hb : FrameBase s u) (h : t.trace = u.trace ++ [.tx out x]) :
    AppendsAllowed s t := by
  rcases hb.trace_eq with hu | hu
  · exact .of_event (e := .tx out x) (h.trans (by rw [hu])) trivial
  · refine ⟨[.resumed, .tx out x], by rw [h, hu, List.append_assoc]; rfl, ?_⟩
    exact List.forall_mem_cons.mpr ⟨trivial, List.forall_mem_singleton.mpr trivial⟩

theorem StepMove.appendsAllowed (h : StepMove s t) : AppendsAllowed s t := by
  cases h with
  | wait _ => exact .of_eq rfl
  | refuse | concurrent | answer | fail | reject => exact .of_eq (by simp)
  | pin r p l _ _ hv _ =>
    exact .of_event (e := .pin p l _) (by rw [State.drivePin_trace, State.latch_trace, State.consume_trace]) hv
  | yield r hp hv hr hd => exact .of_event rfl ⟨hp, hv, r, hr, hd⟩
  | cancel r hp hv _ _ => exact .of_event rfl ⟨hp, hv⟩
  | respond _ => exact .of_event rfl trivial
  | unencodable u i f hb hs ho => exact .of_eq (hb.trace_eq_of_unencodable hs ho)
  | badLength u i out received hb _ _ _ _ => exact .of_tx hb rfl
  | err u i out e hb _ _ _ => exact .of_tx hb rfl
  | ok u t i out received hb _ _ _ _ hm => exact .of_tx hb hm.trace_eq

/-- Whatever a step appends to the trace is allowed where it is taken from. -/
theorem allowedAt_of_step (h : step s = .next t) (ht : t.trace = s.trace ++ events) (he : e ∈ events) : e.AllowedAt s := by
  obtain ⟨events', ht', ha⟩ := (step_move h).appendsAllowed
  cases List.append_cancel_left (ht.symm.trans ht')
  exact ha e he

/-- R201: a yield is all that its step records. -/
theorem StepEvents.eq_yielded (h : StepEvents s events) (he : .yielded ∈ events) : events = [.yielded] := by
  cases h with
  | yielded => rfl
  | _ => simp at he

/-- Settles O46: where a yield is allowed, and that it stands alone. -/
theorem onlyThePollSuspends : Obligations.OnlyThePollSuspends := by
  intro s t h events ht hy
  obtain ⟨hp, hv, -⟩ := allowedAt_of_step h ht hy
  obtain ⟨events', ht', he⟩ := (step_move h).events
  cases List.append_cancel_left (ht.symm.trans ht')
  exact ⟨hp, hv, he.eq_yielded hy⟩

/-- Under the invariant a SUSPENDING block has no pins (R207). -/
theorem State.Inv.pins_eq_none (h : s.Inv) (hv : s.variant = .suspending) : s.pins = none := by
  have hp := h.pins
  rw [hv] at hp
  exact Option.isNone_iff_eq_none.mp (Option.isSome_eq_false_iff.mp hp)

/-- Settles O47: the invariant after the step, and where a pin write is allowed. -/
theorem suspendingBlocksTouchNoPin : Obligations.SuspendingBlocksTouchNoPin := by
  intro s t hi hv h
  have ht : t.Inv := everyStepKeepsTheInvariant s t hi h
  have hv' : t.variant = .suspending := (configurationIsReadOnly s t h).1.trans hv
  refine ⟨ht.pins_eq_none hv', (ht.noPinRequest hv').2, fun events hev e he => ?_⟩
  have ha := allowedAt_of_step h hev he
  cases e with
  | pin p l x => cases hv.symm.trans ha
  | _ => rfl

/-- Settles O39: the Cancel that is delivered, and where one is allowed. -/
theorem cancelAbandonsTheRequest : Obligations.CancelAbandonsTheRequest := by
  refine ⟨fun s r q hv hp hr hd hport hq => ?_, fun s t events h ht he => allowedAt_of_step h ht he⟩
  rw [step_cancel (State.polls_suspended hv hp hr hd).selected hp hport hq, State.cancel, hq, List.tail_cons]

/-! ### The SUSPENDING poll -/

/-- The block makes a status read of a SUSPENDING poll of `r` next, and its host presents nothing. -/
structure State.SuspendingPoll (s : State) (r : Request) : Prop extends s.Polls r where
  variant : s.variant = .suspending
  port : s.env.port = none

/-- R161: a status read that shows BUSY goes on with the poll. -/
theorem State.Polls.exec_polled (h : s.Polls r) (hx : s.env.xferIn = statusAnswer b :: rest) (hb : b.2.getLsbD 0 = true) :
    exec .txReadStatusRegister1 s = .next (s.polled [b] rest) := by
  rw [h.exec_busy (State.xferAnswer_cons hx) hb, State.afterXfer_of_cons _ hx]
  rfl

/-- R161: a status read that shows BUSY 0 ends the poll. -/
theorem State.Polls.exec_ended (h : s.Polls r) (hx : s.env.xferIn = statusAnswer c :: rest) (hc : c.2.getLsbD 0 = false) :
    exec .txReadStatusRegister1 s = .next (s.pollEnded [] c rest) := by
  have ha : s.xferAnswer = .ok [c.1, c.2] := State.xferAnswer_cons hx
  cases hv : s.verifies with
  | true =>
    rw [h.exec_verify ha hc hv, State.afterXfer_of_cons _ hx, State.pollEnded, hv]
    rfl
  | false =>
    rw [h.exec_finish ha hc hv, State.afterXfer_of_cons _ hx, State.pollEnded, hv]
    rfl

/-- The block that makes the next status read of a SUSPENDING poll after the reads `bs`, each of which showed BUSY, was followed by a
yield and was resumed; `rest` and `sched` are the answers and deliveries to come. -/
def State.pollResumed (bs : List (Byte × Byte)) (rest : List XferResult) (sched : List SchedInput) (s : State) : State :=
  { s with
    phase := if bs.isEmpty then s.phase else .suspended
    statusReads := s.statusReads + bs.length
    suspensions := s.suspensions + bs.length
    trace := s.trace ++ bs.flatMap fun b => [statusEvent s.params b, .yielded, .resumed]
    env := { s.env with xferIn := rest, schedIn := sched, xferCount := s.env.xferCount + bs.length } }

theorem State.pollResumed_nil (s : State) : s.pollResumed [] s.env.xferIn s.env.schedIn = s := by
  simp [State.pollResumed]

theorem State.pollResumed_cons (b : Byte × Byte) (bs : List (Byte × Byte)) (rest rest' : List XferResult)
    (sched sched' : List SchedInput) (s : State) :
    (s.pollResumed [b] rest' sched').pollResumed bs rest sched = s.pollResumed (b :: bs) rest sched := by
  simp [State.pollResumed, Nat.add_assoc, Nat.add_comm 1]

/-- A read that shows BUSY, its yield and the Resume after it. -/
theorem State.polled_yield_resume (b : Byte × Byte) (hq : s.env.schedIn = .resume :: sched) :
    (s.polled [b] rest).yield.resume = s.pollResumed [b] rest sched := by
  simp [State.polled, State.yield, State.resume, State.pollResumed, hq]

theorem State.SuspendingPoll.pollResumed (h : s.SuspendingPoll r) (bs : List (Byte × Byte)) (rest : List XferResult)
    (sched : List SchedInput) : (s.pollResumed bs rest sched).SuspendingPoll r where
  req := h.req
  destructive := h.destructive
  phase := by
    cases bs with
    | nil => exact h.phase
    | cons _ _ => exact .inr (.inr ⟨rfl, h.variant⟩)
  variant := h.variant
  port := h.port

/-- R201: after a status read that showed BUSY the block yields, and once resumed reads again. -/
theorem State.SuspendingPoll.steps_polled (h : u.SuspendingPoll r) (b : Byte × Byte) (rest : List XferResult)
    (hq : u.env.schedIn = .resume :: sched) :
    step (u.polled [b] rest) = .next (u.polled [b] rest).yield ∧
      step (u.polled [b] rest).yield = exec .txReadStatusRegister1 (u.pollResumed [b] rest sched) := by
  have hs : (u.polled [b] rest).yield.selected = some .txReadStatusRegister1 :=
    (State.polls_suspended (s := (u.polled [b] rest).yield) h.variant rfl h.req h.destructive).selected
  exact ⟨step_yield h.variant rfl h.req h.destructive h.port,
    State.polled_yield_resume b hq ▸ step_resume hs rfl h.port hq⟩

theorem run_one (s : State) : run 1 s = step s := by
  rw [run]
  cases step s <;> rfl

/-- R201: from a step that makes a status read at `u`, two steps for each read that shows BUSY, and then the next read. -/
theorem State.SuspendingPoll.run_busy (h : u.SuspendingPoll r) (hstep : step s = exec .txReadStatusRegister1 u)
    (hx : u.env.xferIn = bs.map statusAnswer ++ rest) (hq : u.env.schedIn = List.replicate bs.length .resume ++ sched)
    (hb : ∀ b ∈ bs, b.2.getLsbD 0 = true) :
    run (2 * bs.length + 1) s = exec .txReadStatusRegister1 (u.pollResumed bs rest sched) := by
  induction bs generalizing s u with
  | nil =>
    cases hx
    cases hq
    rw [State.pollResumed_nil, ← hstep]
    exact run_one s
  | cons b bs ih =>
    obtain ⟨hb₁, hbs⟩ := List.forall_mem_cons.mp hb
    have hread := hstep.trans (h.exec_polled (rest := bs.map statusAnswer ++ rest) hx hb₁)
    obtain ⟨hyield, hresume⟩ := h.steps_polled b (bs.map statusAnswer ++ rest) hq
    rw [show 2 * (b :: bs).length + 1 = 2 * bs.length + 1 + 1 + 1 from rfl, run_succ hread, run_succ hyield,
      ih (h.pollResumed [b] _ _) hresume rfl rfl hbs, State.pollResumed_cons]

/-- Settles O53: where a yield is allowed; and the poll from read to read, up to the read that ends it. -/
theorem suspendingPollYieldsOncePerBusyRead : Obligations.SuspendingPollYieldsOncePerBusyRead := by
  refine ⟨fun s t events h ht hy => (allowedAt_of_step h ht hy).2.2, ?_⟩
  intro s r bs c rest sched hv hp hr hd hn hy hport hb hc hx hq
  have h : s.SuspendingPoll r := { req := hr, destructive := hd, phase := .inl hp, variant := hv, port := hport }
  have hrun := h.run_busy (step_selected h.selected (.inr hport) (by simp [hp])) hx hq hb
  rw [(h.pollResumed bs _ sched).exec_ended rfl hc] at hrun
  refine ⟨_, hrun, ?_, ?_, ?_, ?_, rfl, ?_⟩
  · simp [State.pollEnded, State.pollResumed, hn]
  · simp [State.pollEnded, State.pollResumed, hy]
  · rintro ⟨a, d, rfl⟩ hback
    exact if_pos ((State.verifies_program hr).trans hback)
  · intro hno
    exact if_neg (ne_true_of_eq_false (State.verifies_eq_false hr hno))
  · simp [State.pollEnded, State.pollResumed]

end Sys2Proof.Machine
end

section
/-!
PROOFS. Errors and faults: a Faulted block does nothing (O37), the classification of the errors (O35), and which request fails with
which error (O50): what its checks answer, what its pin answers, or what the transaction of its phase answers.
-/

namespace Sys2Proof.Machine

variable {s t u : State} {i : Instr} {r : Request} {e : BlockError} {g : Geometry} {p : Params} {a : Addr}

/-! ### Faulted -/

/-- R240: a Faulted block performs no instruction, a frame or a request. -/
theorem exec_faulted (i : Instr) (hp : s.phase = .faulted) : exec i s = .fault (.stopped s.faults) := by
  cases hi : i.request? with
  | none => rw [exec_frame hi, State.send_faulted (s := s.counted i) hp, State.counted_faults]
  | some r =>
    cases hu : r.usesPin with
    | true =>
      obtain ⟨p, l, he, -⟩ := exec_pinRequest hi hu s
      rw [he, State.acceptPin_accepted (by simp [hp]), State.accept_faulted hp]
    | false => rw [exec_request hi hu, State.accept_faulted hp]

/-- Settles O37: the step, and every instruction. -/
theorem faultedBlocksStop : Obligations.FaultedBlocksStop :=
  fun _ hp => ⟨step_faulted hp, fun i => exec_faulted i hp⟩

/-! ### The classification -/

/-- Settles O35: the table entry by entry, and the response of a failed block. -/
theorem errorsAreClassified : Obligations.ErrorsAreClassified := by
  intro e f
  exact ⟨rfl, rfl, rfl, rfl, rfl, rfl, rfl, rfl, rfl, rfl, rfl, rfl, fun s k hp => State.response_failed hp⟩

/-! ### Failed checks -/

theorem checkRead_fail {n : Nat} (h : checkRead g a n = .fail e) : e = .outOfBounds := by
  unfold checkRead at h
  split at h
  · cases h; rfl
  · exact absurd h (checkFrameAddr_ne_fail a e)

theorem boundaryError_cases (p : Params) (tooLong : Bool) :
    boundaryError p tooLong = .notAligned ∨ boundaryError p tooLong = .outOfBounds := by
  unfold boundaryError
  split
  · exact .inl rfl
  · exact .inr rfl

theorem checkProgram_fail {d : List Byte} (h : checkProgram g p a d = .fail e) : e = .notAligned ∨ e = .outOfBounds := by
  unfold checkProgram at h
  split at h
  · cases h; exact boundaryError_cases p _
  · split at h
    · cases h; exact .inr rfl
    · exact absurd h (checkFrameAddr_ne_fail a e)

/-- R175, R179: a chip erase has no check to fail, and bounds are checked only if ERASE_CHECKS_CAPACITY says so. -/
theorem checkErase_fail {gran : Granularity} (h : checkErase g p gran a = .fail e) :
    gran ≠ .chip ∧ (e = .notAligned ∨ (e = .outOfBounds ∧ p.eraseChecksCapacity = true)) := by
  have hg : gran ≠ .chip := by
    rintro rfl
    cases h
  refine ⟨hg, ?_⟩
  unfold checkErase at h
  split at h
  · cases h
  · split at h
    · cases h; exact .inl rfl
    · split at h
      · next hc =>
        cases h
        exact .inr ⟨rfl, (Bool.and_eq_true_iff.mp hc).2⟩
      · exact absurd h (checkFrameAddr_ne_fail a e)

/-- R231: the checks of a request fail with a kind listed for it. -/
theorem canFail_of_verdict (h : requestVerdict g p r = .fail e) : canFail p r e = true := by
  cases r with
  | read a n =>
    cases checkRead_fail h
    rfl
  | program a d => rcases checkProgram_fail h with rfl | rfl <;> rfl
  | erase gran a =>
    obtain ⟨hg, rfl | ⟨rfl, hc⟩⟩ := checkErase_fail h
    · exact decide_eq_true hg
    · simp [canFail, hg, hc]
  | _ => cases h

/-! ### Failed actions -/

theorem canFail_of_destructive (h : r.destructive = true) (p : Params) :
    canFail p r .writeEnableFail = true ∧ ∀ e, canFail p r (.transportError e) = true := by
  cases r with
  | program | erase => exact ⟨rfl, fun _ => rfl⟩
  | _ => cases h

theorem canFail_of_firstFrame (h : firstFrame r = some i) (p : Params) (e : TransportErr) :
    canFail p r (.transportError e) = true := by
  cases r with
  | capacity | model | setHold | setWp => cases h
  | _ => rfl

theorem destructive_of_commandFrame (h : commandFrame r = some i) : r.destructive = true := by
  cases r with
  | program | erase => rfl
  | _ => cases h

/-- R155, R230: whatever frame the tables select, its request can fail with a transport error. -/
theorem canFail_of_selected (h : s.selected = some i) (p : Params) (e : TransportErr) :
    ∃ r, s.req = some r ∧ canFail p r (.transportError e) = true := by
  rcases State.selected_cases h with ⟨r, -, hr, hf⟩ | ⟨-, hr, -⟩ | ⟨r, -, hr, hc⟩ | ⟨r, hr, hd, -, -⟩ | ⟨a, d, -, hr, -⟩
  · exact ⟨r, hr, canFail_of_firstFrame hf p e⟩
  · exact ⟨_, hr, rfl⟩
  · exact ⟨r, hr, (canFail_of_destructive (destructive_of_commandFrame hc) p).2 e⟩
  · exact ⟨r, hr, (canFail_of_destructive hd p).2 e⟩
  · exact ⟨_, hr, rfl⟩

theorem confirmLatch_failed {received : List Byte} (h : (confirmLatch received s).phase = .failed e) :
    e = .writeEnableFail := by
  unfold confirmLatch at h
  split at h <;> cases h
  rfl

/-- R157, R163: after an Ok only the confirmation and the readback fail, each of a request listed for it. -/
theorem OkMove.canFail_of_failed {out received : List Byte} {v : State} (h : OkMove u out received v t) (hp : t.phase = .failed e)
    (p : Params) : ∃ r, u.req = some r ∧ canFail p r e = true := by
  cases h with
  | confirm r _ hr hd _ =>
    cases confirmLatch_failed hp
    exact ⟨r, hr, (canFail_of_destructive hd p).1⟩
  | mismatch a d _ hr _ _ =>
    cases hp
    exact ⟨_, hr, rfl⟩
  | poll _ _ _ _ _ => exact absurd hp (pollBranch_phase_ne nofun nofun nofun)
  | _ => cases hp

theorem OkMove.req_eq {out received : List Byte} {v : State} (h : OkMove u out received v t) : t.req = v.req := by
  obtain ⟨_, _, _, rfl⟩ := h.eq
  rfl

/-- R185, R186: a pin request fails only with the error of its pin. -/
theorem State.drivePin_failed {pin : Pin} {l : Level} (h : (s.drivePin pin l).phase = .failed e) :
    (s.drivePin pin l).req = s.req ∧ ∃ f, e = .pinError f := by
  rcases s.drivePin_cases pin l with hd | ⟨f, hd⟩ <;> rw [hd] at h ⊢ <;> cases h
  exact ⟨rfl, f, rfl⟩

/-- R231, for every step that ends in Failed. -/
theorem StepMove.canFail_of_failed (h : StepMove s t) (hp : t.phase = .failed e) :
    ∃ r, t.req = some r ∧ canFail s.params r e = true := by
  cases h with
  | fail r e' _ _ hv =>
    cases hp
    exact ⟨r, rfl, canFail_of_verdict hv⟩
  | pin r pin l _ _ _ hc =>
    obtain ⟨hr, f, rfl⟩ := State.drivePin_failed hp
    refine ⟨r, hr, ?_⟩
    rcases hc with ⟨-, rfl⟩ | ⟨-, rfl⟩ <;> rfl
  | err u i out e' _ hs _ _ =>
    cases hp
    exact canFail_of_selected hs s.params e'
  | ok u t i out received _ _ _ _ _ hm =>
    rw [hm.req_eq]
    exact hm.canFail_of_failed hp s.params
  | wait hw => rcases hw with ⟨hw, -⟩ | ⟨hw, -⟩ <;> simp [hw] at hp
  | refuse _ hw _ => simp [hw] at hp
  | _ => simp at hp

/-- Settles O50: by cases on what a step can do. -/
theorem requestsFailOnlyAsListed : Obligations.RequestsFailOnlyAsListed :=
  fun _ _ _ h hp => (step_move h).canFail_of_failed hp

end Sys2Proof.Machine
end

section
/-!
PROOFS. Construction over an admitted geometry: the BLOCKING pin writes decide it (O11), and a block once built is in the reset
state (O12).
-/

namespace Sys2Proof.Machine

variable {d : GeometryDecl} {g : Geometry} {b : Bool} {p : Params} {hold wp : PinResult} {e : BlockError} {events : List Event}

/-- R270: the first pin error ends a BLOCKING construction, with the events made up to it. -/
theorem construct_blocking_error (h : d.validate = .ok g) (hd : drivePinsHigh hold wp = .error (e, events)) :
    construct .blocking d b p hold wp = .failed e events := by
  simp only [construct, h, hd]

/-- R270. -/
theorem construct_blocking_ok (h : d.validate = .ok g) (hd : drivePinsHigh hold wp = .ok ()) :
    construct .blocking d b p hold wp = .built (State.constructed .blocking g b p) := by
  simp only [construct, h, hd]

/-- R271: the SUSPENDING variant writes no pin, so whatever the pins would answer does not matter. -/
theorem construct_suspending (h : d.validate = .ok g) :
    construct .suspending d b p hold wp = .built (State.constructed .suspending g b p) := by
  simp only [construct, h]

/-- Settles O11: by the three outcomes of the two pin writes. -/
theorem blockingConstructionDrivesBothPins : Obligations.BlockingConstructionDrivesBothPins := by
  intro d g b p r e h
  refine ⟨?_, ?_, State.constructed .blocking g b p, ?_, rfl, rfl⟩
  · exact construct_blocking_error h rfl
  · exact construct_blocking_error h rfl
  · exact construct_blocking_ok h rfl

/-- Settles O12: what is built is `State.constructed`, whose fields are read off. -/
theorem constructedStateIsTheResetState : Obligations.ConstructedStateIsTheResetState := by
  intro d g b p r r' h
  constructor
  · refine ⟨State.constructed .blocking g b p, construct_blocking_ok h rfl, ?_⟩
    simp [State.constructed]
  · refine ⟨State.constructed .suspending g b p, construct_suspending h, ?_⟩
    simp [State.constructed]

end Sys2Proof.Machine
end
